-- ==== Sys2Proof/Word.lean ====
section
/-! DEFINITION. The word types of CDCE: a command word and a register are 32 bits, a BUF cell 8 (R6, R8). -/

namespace Sys2Proof

/-- CMD_W = REG_W = 32: a command word, and the pattern a register holds (R6, R13). -/
abbrev Word := BitVec 32

/-- A byte, an unsigned integer 0..255 (R8): the content of one BUF cell (R50). -/
abbrev Byte := BitVec 8

end Sys2Proof
end

