-- ==== Sys2Proof/Syntax.lean ====
section
/-! DEFINITION. The 24 commands (R78), one constructor per row of the opcode table, each with the operand fields
of its format (R71 to R77, R81). Every operand is the unsigned bit field as the word holds it (R81); which values
are legal is `Instr.wf`. -/

namespace Sys2Proof

/-- A command. `rd`, `offa`, `offb` are the format-D fields of R76; `s` is the signed flag, `.S` of R84. -/
inductive Instr where
  /-- `RESET` (R100), format N. -/
  | reset
  /-- `CALBEGIN fam` (R101), format F. -/
  | calbegin (fam : BitVec 2)
  /-- `CALCOMMIT` (R102), format N. -/
  | calcommit
  /-- `ERRCLR` (R104), format N. -/
  | errclr
  /-- `CYCLE` (R105), format N. -/
  | cycle
  /-- `RD reg` (R106), format R. -/
  | rd (rsel : BitVec 7)
  /-- `SETSLP imm` (R107), format I. -/
  | setslp (imm20 : BitVec 20)
  /-- `LDB off, imm8` (R120), format B. -/
  | ldb (off : BitVec 6) (imm8 : BitVec 8)
  /-- `DEC8[.S] rd, offa` (R125). -/
  | dec8 (rd : BitVec 6) (s : Bool) (offa : BitVec 6)
  /-- `DEC16LE[.S] rd, offa` (R126). -/
  | dec16le (rd : BitVec 6) (s : Bool) (offa : BitVec 6)
  /-- `DEC16BE[.S] rd, offa` (R127). -/
  | dec16be (rd : BitVec 6) (s : Bool) (offa : BitVec 6)
  /-- `DEC12HL[.S] rd, offa, offb` (R128). -/
  | dec12hl (rd : BitVec 6) (s : Bool) (offa offb : BitVec 6)
  /-- `DEC12MS[.S] rd, offa, offb` (R129). -/
  | dec12ms (rd : BitVec 6) (s : Bool) (offa offb : BitVec 6)
  /-- `DEC20 rd, offa` (R130). -/
  | dec20 (rd : BitVec 6) (offa : BitVec 6)
  /-- `DECBF[.S] rd, offa, lsb, width` with `width = wm1 + 1` (R131). -/
  | decbf (rd : BitVec 6) (s : Bool) (lsb wm1 : BitVec 3) (offa : BitVec 6)
  /-- `DECGAS offa` (R132). -/
  | decgas (offa : BitVec 6)
  /-- `COMPT` (R151), format N. -/
  | compt
  /-- `COMPP` (R154), format N. -/
  | compp
  /-- `COMPH` (R157), format N. -/
  | comph
  /-- `ALT` (R160), format N. -/
  | alt
  /-- `GASRES` (R181), format N. -/
  | gasres
  /-- `HEATRES imm` (R183), format I. -/
  | heatres (imm20 : BitVec 20)
  /-- `HEATDUR imm` (R185), format I. -/
  | heatdur (imm20 : BitVec 20)
  /-- `UVI` (`d = 0`) and `UVI.D` (`d = 1`) (R187), format U. -/
  | uvi (d : Bool)
  deriving DecidableEq, Repr

end Sys2Proof
end

