-- ==== Sys2Proof/WellFormed.lean ====
section
/-! DEFINITION. Which commands are legal: the conditions on operands that `match` and `mask` do not express
(R72, R73, R80). Everything here is a property of the word alone (R70, R80). -/

namespace Sys2Proof

/-- `rsel` is a readable register number: 0..25, 32..41, 48..58, 60..68 (R21, R73). -/
def rselReadable (rsel : BitVec 7) : Bool :=
  let n := rsel.toNat
  n ≤ 25 || (32 ≤ n && n ≤ 41) || (48 ≤ n && n ≤ 58) || (60 ≤ n && n ≤ 68)

/-- The `dest` condition of R80: `rd` is 0..25, or 32..41 with `s = 0` (R122). -/
def destLegal (rd : BitVec 6) (s : Bool) : Bool :=
  let n := rd.toNat
  n ≤ 25 || (32 ≤ n && n ≤ 41 && !s)

/-- The instruction is a legal command: its word satisfies the extra condition of its row (R78, R80). -/
def Instr.wf : Instr → Bool
  | .calbegin fam => fam.toNat ≠ 3
  | .rd rsel => rselReadable rsel
  | .dec8 dst s _ => destLegal dst s
  | .dec16le dst s _ => destLegal dst s
  | .dec16be dst s _ => destLegal dst s
  | .dec12hl dst s _ _ => destLegal dst s
  | .dec12ms dst s _ _ => destLegal dst s
  | .dec20 dst _ => destLegal dst false
  | .decbf dst s lsb wm1 _ => destLegal dst s && lsb.toNat + wm1.toNat + 1 ≤ 8
  | .reset | .calcommit | .errclr | .cycle | .setslp _ | .ldb _ _ | .decgas _
  | .compt | .compp | .comph | .alt | .gasres | .heatres _ | .heatdur _ | .uvi _ => true

end Sys2Proof
end

