-- ==== Sys2Proof/Decode.lean ====
section
/-! DEFINITION. The decoder of 30_encoding.md, total on all 2^32 words (R83), and the encoder written from the same
format tables (R71 to R77). The decoder tests fields with its own conditions; that they are those of `Instr.wf` is a
statement, not a definition. -/

namespace Sys2Proof

/-- Why a word is illegal (R82). All of them raise E_ILLEGAL; the name only says which clause of R82 holds. -/
inductive Illegal where
  /-- opcode 0x00, 0x09..0x0F, 0x18..0x1F or 0x28..0x3F (R78) -/
  | reservedOpcode
  /-- a must-be-zero bit is set (R79) -/
  | mustBeZero
  /-- CALBEGIN with `fam = 3` (R72) -/
  | reservedFamily
  /-- RD of a register number that is not readable (R73) -/
  | unreadable
  /-- a decode whose `rd` is neither 0..25 nor 32..41 (R80) -/
  | badDestination
  /-- a decode with a raw destination and `s = 1` (R80, R122) -/
  | signedRaw
  /-- DECBF with `lsb + wm1 + 1 > 8` (R80) -/
  | fieldTooWide
  deriving DecidableEq, Repr

/-- `w[lo+n-1 : lo]`: the n-bit field of w whose lowest bit is lo (R8, R81). -/
def bits (w : Word) (lo n : Nat) : BitVec n := w.extractLsb' lo n

/-- `w[lo]` as a flag (R8). -/
def bit (w : Word) (lo : Nat) : Bool := w.getLsbD lo

/-- The opcode, `w[31:26]` (R70). -/
def opcodeOf (w : Word) : Nat := (bits w 26 6).toNat

/-- Formats N, F, R, I, B, U: answer `i` when the must-be-zero bits `w[lo+n-1 : lo]` are zero (R71 to R75, R77, R79). -/
def whenZero (w : Word) (lo n : Nat) (i : Except Illegal Instr) : Except Illegal Instr :=
  if bits w lo n = 0 then i else .error .mustBeZero

/-- The destination test of format D (R80, R122): `rd = w[25:20]`, `s = w[19]`. -/
def whenDest (w : Word) (i : Except Illegal Instr) : Except Illegal Instr :=
  let n := (bits w 20 6).toNat
  if n < 26 then i
  else if 32 ≤ n ∧ n < 42 then (if bit w 19 then .error .signedRaw else i)
  else .error .badDestination

/-- The decoder (R78 to R83): by opcode, then must-be-zero fields, then the extra condition of the row. -/
def decode (w : Word) : Except Illegal Instr :=
  match opcodeOf w with
  | 0x01 => whenZero w 0 26 (.ok .reset)
  | 0x02 => whenZero w 2 24 <|
      if bits w 0 2 = 3#2 then .error .reservedFamily else .ok (.calbegin (bits w 0 2))
  | 0x03 => whenZero w 0 26 (.ok .calcommit)
  | 0x04 => whenZero w 0 26 (.ok .errclr)
  | 0x05 => whenZero w 0 26 (.ok .cycle)
  | 0x06 => whenZero w 7 19 <|
      let n := (bits w 0 7).toNat
      if n < 26 ∨ (32 ≤ n ∧ n < 42) ∨ (48 ≤ n ∧ n < 59) ∨ (60 ≤ n ∧ n < 69) then .ok (.rd (bits w 0 7))
      else .error .unreadable
  | 0x07 => whenZero w 20 6 (.ok (.setslp (bits w 0 20)))
  | 0x08 => whenZero w 14 12 (.ok (.ldb (bits w 8 6) (bits w 0 8)))
  | 0x10 => whenZero w 12 7 <| whenZero w 0 6 <| whenDest w <|
      .ok (.dec8 (bits w 20 6) (bit w 19) (bits w 6 6))
  | 0x11 => whenZero w 12 7 <| whenZero w 0 6 <| whenDest w <|
      .ok (.dec16le (bits w 20 6) (bit w 19) (bits w 6 6))
  | 0x12 => whenZero w 12 7 <| whenZero w 0 6 <| whenDest w <|
      .ok (.dec16be (bits w 20 6) (bit w 19) (bits w 6 6))
  | 0x13 => whenZero w 12 7 <| whenDest w <|
      .ok (.dec12hl (bits w 20 6) (bit w 19) (bits w 6 6) (bits w 0 6))
  | 0x14 => whenZero w 12 7 <| whenDest w <|
      .ok (.dec12ms (bits w 20 6) (bit w 19) (bits w 6 6) (bits w 0 6))
  | 0x15 => whenZero w 12 8 <| whenZero w 0 6 <| whenDest w <|
      .ok (.dec20 (bits w 20 6) (bits w 6 6))
  | 0x16 => whenZero w 12 1 <| whenZero w 0 6 <| whenDest w <|
      if (bits w 16 3).toNat + (bits w 13 3).toNat + 1 ≤ 8 then
        .ok (.decbf (bits w 20 6) (bit w 19) (bits w 16 3) (bits w 13 3) (bits w 6 6))
      else .error .fieldTooWide
  | 0x17 => whenZero w 12 14 <| whenZero w 0 6 <| .ok (.decgas (bits w 6 6))
  | 0x20 => whenZero w 0 26 (.ok .compt)
  | 0x21 => whenZero w 0 26 (.ok .compp)
  | 0x22 => whenZero w 0 26 (.ok .comph)
  | 0x23 => whenZero w 0 26 (.ok .alt)
  | 0x24 => whenZero w 0 26 (.ok .gasres)
  | 0x25 => whenZero w 20 6 (.ok (.heatres (bits w 0 20)))
  | 0x26 => whenZero w 20 6 (.ok (.heatdur (bits w 0 20)))
  | 0x27 => whenZero w 1 25 (.ok (.uvi (bit w 0)))
  | _ => .error .reservedOpcode

/-- The word of a command: its opcode (R78), then its fields from bit 25 down, zeros where the format says must be
zero (R71 to R77, R80). -/
def encode : Instr → Word
  | .reset => 0x01#6 ++ 0#26
  | .calbegin fam => 0x02#6 ++ 0#24 ++ fam
  | .calcommit => 0x03#6 ++ 0#26
  | .errclr => 0x04#6 ++ 0#26
  | .cycle => 0x05#6 ++ 0#26
  | .rd rsel => 0x06#6 ++ 0#19 ++ rsel
  | .setslp imm20 => 0x07#6 ++ 0#6 ++ imm20
  | .ldb off imm8 => 0x08#6 ++ 0#12 ++ off ++ imm8
  | .dec8 rd s offa => 0x10#6 ++ rd ++ BitVec.ofBool s ++ 0#7 ++ offa ++ 0#6
  | .dec16le rd s offa => 0x11#6 ++ rd ++ BitVec.ofBool s ++ 0#7 ++ offa ++ 0#6
  | .dec16be rd s offa => 0x12#6 ++ rd ++ BitVec.ofBool s ++ 0#7 ++ offa ++ 0#6
  | .dec12hl rd s offa offb => 0x13#6 ++ rd ++ BitVec.ofBool s ++ 0#7 ++ offa ++ offb
  | .dec12ms rd s offa offb => 0x14#6 ++ rd ++ BitVec.ofBool s ++ 0#7 ++ offa ++ offb
  | .dec20 rd offa => 0x15#6 ++ rd ++ 0#8 ++ offa ++ 0#6
  | .decbf rd s lsb wm1 offa => 0x16#6 ++ rd ++ BitVec.ofBool s ++ lsb ++ wm1 ++ 0#1 ++ offa ++ 0#6
  | .decgas offa => 0x17#6 ++ 0#14 ++ offa ++ 0#6
  | .compt => 0x20#6 ++ 0#26
  | .compp => 0x21#6 ++ 0#26
  | .comph => 0x22#6 ++ 0#26
  | .alt => 0x23#6 ++ 0#26
  | .gasres => 0x24#6 ++ 0#26
  | .heatres imm20 => 0x25#6 ++ 0#6 ++ imm20
  | .heatdur imm20 => 0x26#6 ++ 0#6 ++ imm20
  | .uvi d => 0x27#6 ++ 0#25 ++ BitVec.ofBool d

/-- The command whose `nbits`-bit table row has the bits of `w`: CDCE hands command words over as numbers, with no
byte order (R62, R70), so the word is the number itself. Log entry 10. -/
def decodeTableWord (nbits w : Nat) : Option Instr :=
  match decode (BitVec.ofNat 32 (w % 2 ^ nbits)) with
  | .ok i => some i
  | .error _ => none

end Sys2Proof
end

