-- ==== Sys2Proof/Config.lean ====
section
/-! DEFINITION. What the spec leaves to the implementation: the altitude function ALTFN (R6, R161), of which only a
bound is given. `altFree` is the free value; `Sys2Proof.Machine.altFn` keeps it within the bound. -/

namespace Sys2Proof

/-- BUF_SIZE (R6, R50): the cells of BUF, offsets 0..63. -/
def Config.bufSize : Nat := 64

/-- ALT_TOL (R6, R161): the permitted error of ALTFN in centimetres. -/
def Config.altTol : Nat := 1

/-- The free value behind ALTFN(p, den, slp) (R161, U1): nothing is known of it. Log entry 6. -/
opaque Config.altFree (p den slp : Nat) : Word

end Sys2Proof
end

