-- ==== Sys2Proof/Machine/State.lean ====
section
/-! DEFINITION. The state of a CDCE instance (R20), as plain data, and the reset state (R39, R230). Registers hold a
value and, beside it, the valid bit the spec gives them; BUF lists exactly its valid cells. The last two fields are
the model's own: the command port (log entries 4 and 5). -/

namespace Sys2Proof.Machine

/-- InitializationState (R30): three values, 3 never occurs (U8). -/
inductive IState where
  | uninitialized
  | fetching
  | ready
  deriving DecidableEq, Repr

/-- Sensor family (R3, R31): three values, 3 never occurs (U8). -/
inductive Family where
  | A
  | B
  | U
  deriving DecidableEq, Repr

/-- Fault codes 0..12 (R201); 13..255 never appear in ERR. -/
inductive ErrCode where
  | none
  | illegal
  | notReady
  | seq
  | calLocked
  | calPartial
  | range
  | bufInvalid
  | invalid
  | noFine
  | domain
  | family
  | rawSet
  deriving DecidableEq, Repr

/-- The response to one command (R16). -/
inductive Response where
  /-- `ok(d)` -/
  | ok (d : Word)
  /-- `fault(E_X)` -/
  | fault (e : ErrCode)
  /-- `ignored`: the command arrived while FAULT = 1 and is not accepted then (R205) -/
  | ignored
  deriving DecidableEq, Repr

/-- BUF with its valid bits (R50, R51): the pairs (offset, byte) of the valid cells, offsets strictly rising and
below 64. An offset that is not listed has BUFV = 0 and holds no value (log entry 3). -/
abbrev Memory := List Host.Cell

/-- What an offset that is not listed holds: no value, BUFV = 0 (R24, R51, U4; log entry 3). -/
def Memory.unlisted : Option Byte := Option.none

/-- The state (R20). -/
structure State where
  /-- BUF and BUFV (R50, R51) -/
  buf : Memory
  /-- x[0..25], the calibration registers (R22) -/
  cal : Vector Word 26
  /-- V[0..25], bit i for register i: CALPOP (R23, R36) -/
  calV : BitVec 26
  /-- x[32..41], the raw sample registers (R25) -/
  raw : Vector Word 10
  /-- V[32..41], bit k for register 32 + k: RAWV (R26, R36) -/
  rawV : BitVec 10
  /-- x[48..58], the result registers, x[48] = TFINE (R27, R29) -/
  res : Vector Word 11
  /-- V[48..58], bit k for register 48 + k: RESV (R27, R36) -/
  resV : BitVec 11
  /-- SLP, the sea-level reference pressure in pascals (R33) -/
  slp : BitVec 20
  /-- SLPV (R33) -/
  slpV : Bool
  /-- ISTATE (R30) -/
  istate : IState
  /-- FAMILY (R31) -/
  family : Family
  /-- FAULT, the fault latch (R32, R205) -/
  fault : Bool
  /-- ERR (R32, R35) -/
  err : ErrCode
  /-- ECMD, the faulting command word (R32, R35) -/
  ecmd : Word
  /-- the model's own: the command words the host has issued and the engine has not taken, oldest first (R28, U13) -/
  cmds : List Word
  /-- the model's own: the response to the last command executed (R16); none before the first command -/
  resp : Option Response
  deriving DecidableEq, Repr

/-- A stop with a fault: nothing in CDCE stops the machine. A command that raises `fault(E_X)` leaves a next state
(R204), so this type has no value. -/
inductive Fault where
  deriving DecidableEq, Repr

/-- A stop because the model has no meaning for an instruction. -/
inductive Refusal where
  /-- Raised by a dispatch arm that has no meaning yet, under the row's mnemonic; safe. No arm raises it. -/
  | notModelled (mnemonic : String)
  deriving DecidableEq, Repr

/-- The state after power-on (R39, R230): every field the spec gives a reset value has it. The contents of the
registers and of SLP are unspecified and unobservable; the model names 0 (log entries 1 and 2). No command has been
issued and no response given. -/
def State.reset : State where
  buf := []
  cal := Vector.replicate 26 0
  calV := 0
  raw := Vector.replicate 10 0
  rawV := 0
  res := Vector.replicate 11 0
  resV := 0
  slp := 0
  slpV := false
  istate := .uninitialized
  family := .A
  fault := false
  err := .none
  ecmd := 0
  cmds := []
  resp := Option.none

end Sys2Proof.Machine
end

