-- ==== Sys2Proof/Machine/Operands.lean ====
section
/-! DEFINITION. Operand forms: register names and numbers (R21, R22, R25, R27), the registers a family has (R3, R22, R25),
destinations and selectors (R73, R80), and how each decode command assembles its bytes (R53, R125 to R132). -/

namespace Sys2Proof.Machine

/-! ### Register names: index i of the calibration file is register i -/

abbrev Cal.T1 : Fin 26 := 0
abbrev Cal.T2 : Fin 26 := 1
abbrev Cal.T3 : Fin 26 := 2
abbrev Cal.P1 : Fin 26 := 3
abbrev Cal.P2 : Fin 26 := 4
abbrev Cal.P3 : Fin 26 := 5
abbrev Cal.P4 : Fin 26 := 6
abbrev Cal.P5 : Fin 26 := 7
abbrev Cal.P6 : Fin 26 := 8
abbrev Cal.P7 : Fin 26 := 9
abbrev Cal.P8 : Fin 26 := 10
abbrev Cal.P9 : Fin 26 := 11
abbrev Cal.P10 : Fin 26 := 12
abbrev Cal.H1 : Fin 26 := 13
abbrev Cal.H2 : Fin 26 := 14
abbrev Cal.H3 : Fin 26 := 15
abbrev Cal.H4 : Fin 26 := 16
abbrev Cal.H5 : Fin 26 := 17
abbrev Cal.H6 : Fin 26 := 18
abbrev Cal.H7 : Fin 26 := 19
abbrev Cal.G1 : Fin 26 := 20
abbrev Cal.G2 : Fin 26 := 21
abbrev Cal.G3 : Fin 26 := 22
abbrev Cal.RHR : Fin 26 := 23
abbrev Cal.RHV : Fin 26 := 24
abbrev Cal.RSE : Fin 26 := 25

/-! ### Raw sample registers: index k is register 32 + k -/

abbrev Raw.T : Fin 10 := 0
abbrev Raw.P : Fin 10 := 1
abbrev Raw.H : Fin 10 := 2
abbrev Raw.G : Fin 10 := 3
abbrev Raw.GRANGE : Fin 10 := 4
abbrev Raw.UVA : Fin 10 := 5
abbrev Raw.UVB : Fin 10 := 6
abbrev Raw.UVC1 : Fin 10 := 7
abbrev Raw.UVC2 : Fin 10 := 8
abbrev Raw.UVD : Fin 10 := 9

/-! ### Result registers: index k is register 48 + k -/

abbrev Res.TFINE : Fin 11 := 0
abbrev Res.T : Fin 11 := 1
abbrev Res.P : Fin 11 := 2
abbrev Res.H : Fin 11 := 3
abbrev Res.ALT : Fin 11 := 4
abbrev Res.G : Fin 11 := 5
abbrev Res.HRES : Fin 11 := 6
abbrev Res.HDUR : Fin 11 := 7
abbrev Res.UVA : Fin 11 := 8
abbrev Res.UVB : Fin 11 := 9
abbrev Res.UVI : Fin 11 := 10

/-! ### What a family has -/

/-- `REQ[FAMILY]` as a bit map like CALPOP (R22): A has 0..11 and 13..18, B has 0..25, U has none. -/
def required : Family → BitVec 26
  | .A => 0x007EFFF#26
  | .B => 0x3FFFFFF#26
  | .U => 0#26

/-- `RAWSET[FAMILY]` as a bit map like RAWV (R25): A has 32..34, B has 32..36, U has 37..41. -/
def rawSet : Family → BitVec 10
  | .A => 0x007#10
  | .B => 0x01F#10
  | .U => 0x3E0#10

/-- `CALBEGIN fam` (R72, R101): 0 = A, 1 = B, 2 = U, 3 is illegal. -/
def familyOf (fam : BitVec 2) : Option Family :=
  if fam = 0#2 then some .A else if fam = 1#2 then some .B else if fam = 2#2 then some .U else none

/-! ### Destinations and selectors -/

/-- The destination of a decode command (R80). -/
inductive Dest where
  | cal (i : Fin 26)
  | raw (k : Fin 10)
  deriving DecidableEq, Repr

/-- The destination that `rd` and `s` name; `none` where R80 and R122 make the word illegal. -/
def destOf (rd : BitVec 6) (s : Bool) : Option Dest :=
  if h : rd.toNat < 26 then some (.cal ⟨rd.toNat, h⟩)
  else if h : 32 ≤ rd.toNat ∧ rd.toNat < 42 then
    if s then none else some (.raw ⟨rd.toNat - 32, by omega⟩)
  else none

/-- The always readable registers 61..68 (R34, R35, R36). -/
inductive SysReg where
  | status
  | err
  | ecmd
  | calpop
  | rawv
  | resv
  | bufvLo
  | bufvHi
  deriving DecidableEq, Repr

/-- What `RD` reads (R21, R106). -/
inductive RegSel where
  | cal (i : Fin 26)
  | raw (k : Fin 10)
  | res (k : Fin 11)
  | slp
  | sys (r : SysReg)
  deriving DecidableEq, Repr

/-- The system register with number n, 61..68 (R21). -/
def sysRegOf (n : Nat) : Option SysReg :=
  if n = 61 then some .status
  else if n = 62 then some .err
  else if n = 63 then some .ecmd
  else if n = 64 then some .calpop
  else if n = 65 then some .rawv
  else if n = 66 then some .resv
  else if n = 67 then some .bufvLo
  else if n = 68 then some .bufvHi
  else none

/-- The register that `rsel` names; `none` for the numbers of R21 that are not readable (R73). -/
def regSelOf (rsel : BitVec 7) : Option RegSel :=
  if h : rsel.toNat < 26 then some (.cal ⟨rsel.toNat, h⟩)
  else if h : 32 ≤ rsel.toNat ∧ rsel.toNat < 42 then some (.raw ⟨rsel.toNat - 32, by omega⟩)
  else if h : 48 ≤ rsel.toNat ∧ rsel.toNat < 59 then some (.res ⟨rsel.toNat - 48, by omega⟩)
  else if rsel.toNat = 60 then some .slp
  else (sysRegOf rsel.toNat).map .sys

/-! ### Byte assembly (R53) -/

/-- Bits 3:0 of a byte (R19). -/
def lowNibble (b : Byte) : BitVec 4 := b.extractLsb' 0 4

/-- Bits 7:4 of a byte (R19). -/
def highNibble (b : Byte) : BitVec 4 := b.extractLsb' 4 4

/-- DEC16LE: low byte first (R126). -/
def le16 (b0 b1 : Byte) : BitVec 16 := b1 ++ b0

/-- DEC16BE: most significant byte first (R127). -/
def be16 (b0 b1 : Byte) : BitVec 16 := b0 ++ b1

/-- DEC12HL: the high byte and the low nibble of the other (R128). -/
def hl12 (a b : Byte) : BitVec 12 := a ++ lowNibble b

/-- DEC12MS: the msb byte and the high nibble of the other (R129). -/
def ms12 (a b : Byte) : BitVec 12 := a ++ highNibble b

/-- DEC20: three bytes, most significant first, the third by its high nibble (R130). -/
def msb20 (b0 b1 b2 : Byte) : BitVec 20 := b0 ++ b1 ++ highNibble b2

/-- DECBF: bits lsb+n-1 .. lsb of the byte (R131). -/
def bitField (b : Byte) (lsb n : Nat) : BitVec n := b.extractLsb' lsb n

/-- DECGAS: the count, the first byte and bits 7:6 of the second (R132). -/
def gasCount (b0 b1 : Byte) : BitVec 10 := b0 ++ (b1.extractLsb' 6 2 : BitVec 2)

/-- DECGAS: the range, bits 3:0 of the second byte (R132). -/
def gasRange (b1 : Byte) : BitVec 4 := lowNibble b1

/-- What a decode command writes: `sext_N(v)` for s = 1, v for s = 0, as a 32-bit pattern (R11, R13). -/
def widen {n : Nat} (s : Bool) (v : BitVec n) : Word := if s then v.signExtend 32 else v.setWidth 32

end Sys2Proof.Machine
end

