-- ==== Sys2Proof/Machine/Flags.lean ====
section
/-! DEFINITION. The flags of CDCE are its valid bits (R23, R26, R27, R33, R51); STATUS, ERR and the maps are views of the
state, computed when they are read (R34 to R36). -/

namespace Sys2Proof.Machine

/-- Bit map v with bit i set: `V[i] <- 1` (R13). -/
def setBit {n : Nat} (v : BitVec n) (i : Nat) : BitVec n := v ||| BitVec.twoPow n i

/-- `V[i]` of calibration register i (R23). -/
def calValid (i : Fin 26) (s : State) : Bool := s.calV.getLsbD i

/-- `V[32 + k]` (R26). -/
def rawValid (k : Fin 10) (s : State) : Bool := s.rawV.getLsbD k

/-- `V[48 + k]` (R27). -/
def resValid (k : Fin 11) (s : State) : Bool := s.resV.getLsbD k

/-- Calibration register i is in `REQ[FAMILY]` (R22). -/
def inRequired (i : Fin 26) (s : State) : Bool := (required s.family).getLsbD i

/-- Raw register 32 + k is in `RAWSET[FAMILY]` (R25). -/
def inRawSet (k : Fin 10) (s : State) : Bool := (rawSet s.family).getLsbD k

/-- The byte of cell a, no value when BUFV[a] = 0 (R14, R51). -/
def Memory.read : Memory → Nat → Option Byte
  | [], _ => Memory.unlisted
  | c :: m, a => if c.1 = a then some c.2 else Memory.read m a

/-- `BUFV[a]` (R51). -/
def Memory.valid (m : Memory) (a : Nat) : Bool := (Memory.read m a).isSome

/-- ISTATE as its 2 bits (R30). -/
def IState.code : IState → BitVec 2
  | .uninitialized => 0
  | .fetching => 1
  | .ready => 2

/-- FAMILY as its 2 bits (R31). -/
def Family.code : Family → BitVec 2
  | .A => 0
  | .B => 1
  | .U => 2

/-- ERR as its 8 bits (R201). -/
def ErrCode.code : ErrCode → BitVec 8
  | .none => 0
  | .illegal => 1
  | .notReady => 2
  | .seq => 3
  | .calLocked => 4
  | .calPartial => 5
  | .range => 6
  | .bufInvalid => 7
  | .invalid => 8
  | .noFine => 9
  | .domain => 10
  | .family => 11
  | .rawSet => 12

/-- STATUS, register 61 (R34): ISTATE in 1:0, FAMILY in 3:2, FAULT in 4, TFV in 5, SLPV in 6, zeros above. -/
def statusWord (s : State) : Word :=
  0#25 ++ BitVec.ofBool s.slpV ++ BitVec.ofBool (resValid Res.TFINE s) ++ BitVec.ofBool s.fault
    ++ s.family.code ++ s.istate.code

/-- Bits k < n of a BUFV map: `BUFV[base + k]` (R36). -/
def bufMap (m : Memory) (base : Nat) : Nat → Word
  | 0 => 0
  | n + 1 => if Memory.valid m (base + n) then setBit (bufMap m base n) n else bufMap m base n

/-- The value of an always readable register (R34 to R36). -/
def sysValue (r : SysReg) (s : State) : Word :=
  match r with
  | .status => statusWord s
  | .err => s.err.code.setWidth 32
  | .ecmd => s.ecmd
  | .calpop => s.calV.setWidth 32
  | .rawv => s.rawV.setWidth 32
  | .resv => s.resV.setWidth 32
  | .bufvLo => bufMap s.buf 0 32
  | .bufvHi => bufMap s.buf 32 32

end Sys2Proof.Machine
end

