-- ==== Sys2Proof/Machine/Ops.lean ====
section
/-! DEFINITION. The shared operations: BUF accesses (R14), register writes (R13), responses and fault entry (R15, R16,
R204), the fault latch and the return from it (R205, R206), the command port (R28, U13), and the checks every decode
command makes (R121 to R124). -/

namespace Sys2Proof.Machine

/-! ### Memory -/

/-- `MemWrite(a, 1, b)`: BUF[a] <- b and BUFV[a] <- 1 (R14), keeping the offsets strictly rising. -/
def Memory.write : Memory → Nat → Byte → Memory
  | [], a, b => [(a, b)]
  | c :: m, a, b =>
    if a < c.1 then (a, b) :: c :: m
    else if a = c.1 then (a, b) :: m
    else c :: Memory.write m a b

/-- The canonical form of BUF: offsets strictly rising and below BUF_SIZE (R50). An unlisted offset has no value, so
no listed entry equals what it reads as. -/
abbrev Memory.wf (m : Memory) : Prop :=
  m.Pairwise (fun c d => c.1 < d.1) ∧ ∀ c ∈ m, c.1 < Config.bufSize

/-- `MemRead(a, 1)` where `sourceCheck` has found BUFV[a] = 1 (R14, R121); the default is never used. -/
def Memory.cell (m : Memory) (a : Nat) : Byte := (Memory.read m a).getD 0

/-! ### Registers -/

/-- `x[i] <- v` for a calibration register (R13). -/
def writeCal (i : Fin 26) (v : Word) (s : State) : State :=
  { s with cal := s.cal.set i v, calV := setBit s.calV i }

/-- `x[32 + k] <- v` (R13). -/
def writeRaw (k : Fin 10) (v : Word) (s : State) : State :=
  { s with raw := s.raw.set k v, rawV := setBit s.rawV k }

/-- `x[48 + k] <- v` (R13). -/
def writeRes (k : Fin 11) (v : Word) (s : State) : State :=
  { s with res := s.res.set k v, resV := setBit s.resV k }

/-! ### Responses, fault entry and return -/

/-- The response `ok(d)` (R16). -/
def respond (d : Word) (s : State) : State := { s with resp := some (.ok d) }

/-- Fault entry, `raise E_X` for the command word w (R15, R204): nothing changes but the latch; `fault(E_X)`. -/
def raise (e : ErrCode) (w : Word) (s : State) : State :=
  { s with fault := true, err := e, ecmd := w, resp := some (.fault e) }

/-- The return, ERRCLR (R104, R206): FAULT, ERR and ECMD to 0, nothing restored. -/
def clearFault (s : State) : State := { s with fault := false, err := .none, ecmd := 0 }

/-- The response `ignored`; nothing else changes (R205). -/
def ignore (s : State) : State := { s with resp := some .ignored }

/-- One test of a command rule: `if not c then raise e`, else go on (R15). -/
def require (c : Prop) [Decidable c] (e : ErrCode) (k : Except ErrCode State) : Except ErrCode State :=
  if c then k else .error e

/-- The end of a command with word w begun in s: its state when no test failed, fault entry when one did (R15, R204). -/
def complete (w : Word) (s : State) : Except ErrCode State → Host.Outcome State Fault Refusal
  | .ok t => .next t
  | .error e => .next (raise e w s)

/-! ### The latch and the command port -/

/-- The words the engine executes while FAULT = 1 (R205): RESET, ERRCLR and RD of 61..68. -/
def latchAccepts (w : Word) : Bool :=
  w = 0x04000000#32 || w = 0x10000000#32 || (0x1800003D ≤ w.toNat && w.toNat ≤ 0x18000044)

/-- The next command word and the state without it; none when the host has issued none (R28, U13). -/
def takeCommand (s : State) : Option (Word × State) :=
  match s.cmds with
  | [] => none
  | w :: rest => some (w, { s with cmds := rest })

/-- The latch's decision (R203 point 1, R205): the word is ignored. -/
def latched (w : Word) (s : State) : Bool := s.fault && !latchAccepts w

/-! ### What every decode command checks -/

/-- The source check (R121): E_RANGE if an offset exceeds 63, else E_BUFINVALID if a cell is not valid. -/
def sourceCheck (offs : List Nat) (s : State) (k : Except ErrCode State) : Except ErrCode State :=
  require (∀ a ∈ offs, a < Config.bufSize) .range <|
  require (∀ a ∈ offs, Memory.valid s.buf a = true) .bufInvalid k

/-- A decode with calibration destination i (R123). -/
def decodeCal (i : Fin 26) (offs : List Nat) (v : Word) (s : State) : Except ErrCode State :=
  require (s.istate ≠ .uninitialized) .seq <|
  require (s.istate ≠ .ready) .calLocked <|
  require (inRequired i s = true) .family <|
  sourceCheck offs s <|
  require (calValid i s = false) .calLocked <|
  .ok (respond 0 (writeCal i v s))

/-- A decode with raw destination 32 + k (R124). -/
def decodeRaw (k : Fin 10) (offs : List Nat) (v : Word) (s : State) : Except ErrCode State :=
  require (s.istate = .ready) .notReady <|
  require (inRawSet k s = true) .family <|
  sourceCheck offs s <|
  require (rawValid k s = false) .rawSet <|
  .ok (respond 0 (writeRaw k v s))

/-- A decode command other than DECGAS: read the cells `offs`, write v to the destination of `rd` (R121 to R131).
A destination R80 does not allow is E_ILLEGAL (log entry 8). -/
def decodeTo (rd : BitVec 6) (sgn : Bool) (offs : List Nat) (v : Word) (s : State) : Except ErrCode State :=
  match destOf rd sgn with
  | some (.cal i) => decodeCal i offs v s
  | some (.raw k) => decodeRaw k offs v s
  | none => .error .illegal

end Sys2Proof.Machine
end

