-- ==== Sys2Proof/Machine/Buffer.lean ====
section
/-! DEFINITION. The buffer store and the decode commands of 41_buffer_decode.md. Each decode command names the cells it
reads (R53, R121) and the value it assembles from them; the checks and the write are `decodeTo`. -/

namespace Sys2Proof.Machine

/-- `LDB off, imm8` (R120). -/
def execLdb (off : BitVec 6) (imm8 : BitVec 8) (s : State) : Host.Outcome State Fault Refusal :=
  complete (encode (.ldb off imm8)) s <|
    .ok (respond 0 { s with buf := Memory.write s.buf off.toNat imm8 })

/-- `DEC8[.S] rd, offa` (R125). -/
def execDec8 (rd : BitVec 6) (sgn : Bool) (offa : BitVec 6) (s : State) : Host.Outcome State Fault Refusal :=
  let a := offa.toNat
  complete (encode (.dec8 rd sgn offa)) s <|
    decodeTo rd sgn [a] (widen sgn (Memory.cell s.buf a)) s

/-- `DEC16LE[.S] rd, offa` (R126). -/
def execDec16le (rd : BitVec 6) (sgn : Bool) (offa : BitVec 6) (s : State) : Host.Outcome State Fault Refusal :=
  let a := offa.toNat
  complete (encode (.dec16le rd sgn offa)) s <|
    decodeTo rd sgn [a, a + 1] (widen sgn (le16 (Memory.cell s.buf a) (Memory.cell s.buf (a + 1)))) s

/-- `DEC16BE[.S] rd, offa` (R127). -/
def execDec16be (rd : BitVec 6) (sgn : Bool) (offa : BitVec 6) (s : State) : Host.Outcome State Fault Refusal :=
  let a := offa.toNat
  complete (encode (.dec16be rd sgn offa)) s <|
    decodeTo rd sgn [a, a + 1] (widen sgn (be16 (Memory.cell s.buf a) (Memory.cell s.buf (a + 1)))) s

/-- `DEC12HL[.S] rd, offa, offb` (R128). -/
def execDec12hl (rd : BitVec 6) (sgn : Bool) (offa offb : BitVec 6) (s : State) :
    Host.Outcome State Fault Refusal :=
  let a := offa.toNat
  let b := offb.toNat
  complete (encode (.dec12hl rd sgn offa offb)) s <|
    decodeTo rd sgn [a, b] (widen sgn (hl12 (Memory.cell s.buf a) (Memory.cell s.buf b))) s

/-- `DEC12MS[.S] rd, offa, offb` (R129). -/
def execDec12ms (rd : BitVec 6) (sgn : Bool) (offa offb : BitVec 6) (s : State) :
    Host.Outcome State Fault Refusal :=
  let a := offa.toNat
  let b := offb.toNat
  complete (encode (.dec12ms rd sgn offa offb)) s <|
    decodeTo rd sgn [a, b] (widen sgn (ms12 (Memory.cell s.buf a) (Memory.cell s.buf b))) s

/-- `DEC20 rd, offa` (R130); there is no signed form. -/
def execDec20 (rd : BitVec 6) (offa : BitVec 6) (s : State) : Host.Outcome State Fault Refusal :=
  let a := offa.toNat
  complete (encode (.dec20 rd offa)) s <|
    decodeTo rd false [a, a + 1, a + 2]
      (widen false (msb20 (Memory.cell s.buf a) (Memory.cell s.buf (a + 1)) (Memory.cell s.buf (a + 2)))) s

/-- `DECBF[.S] rd, offa, lsb, width` with width = wm1 + 1 (R131); a field that leaves the byte is illegal (R80). -/
def execDecbf (rd : BitVec 6) (sgn : Bool) (lsb wm1 : BitVec 3) (offa : BitVec 6) (s : State) :
    Host.Outcome State Fault Refusal :=
  let a := offa.toNat
  complete (encode (.decbf rd sgn lsb wm1 offa)) s <|
    require (lsb.toNat + wm1.toNat + 1 ≤ 8) .illegal <|
    decodeTo rd sgn [a] (widen sgn (bitField (Memory.cell s.buf a) lsb.toNat (wm1.toNat + 1))) s

/-- The checks of DECGAS, R124 with the destinations 35 and 36, and its two writes (R132). -/
def decodeGas (a : Nat) (s : State) : Except ErrCode State :=
  require (s.istate = .ready) .notReady <|
  require (inRawSet Raw.G s = true ∧ inRawSet Raw.GRANGE s = true) .family <|
  sourceCheck [a, a + 1] s <|
  require (rawValid Raw.G s = false ∧ rawValid Raw.GRANGE s = false) .rawSet <|
  .ok (respond 0
    (writeRaw Raw.GRANGE (widen false (gasRange (Memory.cell s.buf (a + 1))))
      (writeRaw Raw.G (widen false (gasCount (Memory.cell s.buf a) (Memory.cell s.buf (a + 1)))) s)))

/-- `DECGAS offa` (R132). -/
def execDecgas (offa : BitVec 6) (s : State) : Host.Outcome State Fault Refusal :=
  complete (encode (.decgas offa)) s (decodeGas offa.toNat s)

end Sys2Proof.Machine
end

