-- ==== Sys2Proof/Machine/Control.lean ====
section
/-! DEFINITION. The control commands of 40_control.md: RESET, CALBEGIN, CALCOMMIT, ERRCLR, CYCLE, RD, SETSLP. -/

namespace Sys2Proof.Machine

/-- Every piece of CDCE state at its reset value (R100, R230); the command port is no CDCE state (R28, log entry 4). -/
def resetState (s : State) : State := { State.reset with cmds := s.cmds, resp := s.resp }

/-- `RESET` (R100). -/
def execReset (s : State) : Host.Outcome State Fault Refusal :=
  complete (encode .reset) s (.ok (respond 0 (resetState s)))

/-- `CALBEGIN fam` (R101). -/
def execCalbegin (fam : BitVec 2) (s : State) : Host.Outcome State Fault Refusal :=
  complete (encode (.calbegin fam)) s <|
    match familyOf fam with
    | none => .error .illegal
    | some f =>
      require (s.istate = .uninitialized) .seq <|
      .ok (respond 0 { s with family := f, istate := .fetching })

/-- `CALCOMMIT` (R102): the populated set must be exactly `REQ[FAMILY]`. -/
def execCalcommit (s : State) : Host.Outcome State Fault Refusal :=
  complete (encode .calcommit) s <|
    require (s.istate = .fetching) .seq <|
    require (s.calV = required s.family) .calPartial <|
    .ok (respond 0 { s with istate := .ready })

/-- `ERRCLR` (R104). -/
def execErrclr (s : State) : Host.Outcome State Fault Refusal :=
  complete (encode .errclr) s (.ok (respond 0 (clearFault s)))

/-- A new acquisition cycle (R105): every raw, result and BUF valid bit is cleared. -/
def newCycle (s : State) : State := { s with rawV := 0, resV := 0, buf := [] }

/-- `CYCLE` (R105). -/
def execCycle (s : State) : Host.Outcome State Fault Refusal :=
  complete (encode .cycle) s <|
    require (s.istate = .ready) .notReady <|
    .ok (respond 0 (newCycle s))

/-- What `RD` answers for a register, or the fault (R106). -/
def readSel (r : RegSel) (s : State) : Except ErrCode State :=
  match r with
  | .sys q => .ok (respond (sysValue q s) s)
  | .slp => require (s.slpV = true) .invalid <| .ok (respond (s.slp.setWidth 32) s)
  | .cal i => require (calValid i s = true) .invalid <| .ok (respond s.cal[i] s)
  | .raw k => require (rawValid k s = true) .invalid <| .ok (respond s.raw[k] s)
  | .res k => require (resValid k s = true) .invalid <| .ok (respond s.res[k] s)

/-- `RD reg` (R106). -/
def execRd (rsel : BitVec 7) (s : State) : Host.Outcome State Fault Refusal :=
  complete (encode (.rd rsel)) s <|
    match regSelOf rsel with
    | none => .error .illegal
    | some r => readSel r s

/-- `SETSLP imm` (R107). -/
def execSetslp (imm20 : BitVec 20) (s : State) : Host.Outcome State Fault Refusal :=
  complete (encode (.setslp imm20)) s <|
    require (imm20 ≠ 0#20) .domain <|
    .ok (respond 0 { s with slp := imm20, slpV := true })

end Sys2Proof.Machine
end

