-- ==== Sys2Proof/Machine/Fixed.lean ====
section
/-! DEFINITION. The fixed-point arithmetic of R9 to R12. A `[W = 32]` or `[W = 64]` block is evaluated on bit vectors of
width W: `+`, `-`, `*` of bit vectors are the wrapped nodes of R12, and the three operations below are `sra`, `shl` and
`tdiv` of R10 at that width. `Sys2Proof/Laws/Fixed.lean` shows each of them as `wrapW` of the mathematical result. -/

namespace Sys2Proof.Machine

/-- `sra(x, n) = floor(x / 2^n)` on the signed value (R10). -/
def sra {w : Nat} (x : BitVec w) (n : Nat) : BitVec w := x.sshiftRight n

/-- `shl(x, n) = x · 2^n`, wrapped (R10, R12). -/
def shl {w : Nat} (x : BitVec w) (n : Nat) : BitVec w := x <<< n

/-- `tdiv(a, b)`, truncated toward zero and wrapped (R10, R12); every caller tests a computed b for zero first (R212). -/
def tdiv {w : Nat} (a b : BitVec w) : BitVec w := a.sdiv b

/-- A register operand entering a `[W = 64]` block: its signed value (R12, R13). -/
def s64 (x : Word) : BitVec 64 := x.signExtend 64

/-- `wrap32` and `u32` of a 64-bit value: the 32-bit pattern with the same low bits (R9). -/
def lo32 (x : BitVec 64) : Word := x.setWidth 32

end Sys2Proof.Machine
end

