-- ==== Sys2Proof/Machine/Environment.lean ====
section
/-! DEFINITION. The environmental compensation commands of 42_comp_env.md: COMPT, COMPP, COMPH, ALT. Each formula keeps
its rule's order of operations, node by node (R12, R18). -/

namespace Sys2Proof.Machine

/-- `TempA` (R152), W = 32: (tfine, rt). -/
def tempA (adc t1 t2 t3 : Word) : Word × Word :=
  let a := sra adc 3 - shl t1 1
  let v1 := sra (a * t2) 11
  let d := sra adc 4 - t1
  let v2 := sra (sra (d * d) 12 * t3) 14
  let tfine := v1 + v2
  (tfine, sra (tfine * 5 + 128) 8)

/-- `TempB` (R153), W = 64 up to tfine, then W = 32: (tfine, rt). -/
def tempB (adc t1 t2 t3 : Word) : Word × Word :=
  let a := sra (s64 adc) 3 - shl (s64 t1) 1
  let v2 := sra (a * s64 t2) 11
  let h := sra a 1
  let v3 := sra (h * h) 12
  let v3 := sra (v3 * shl (s64 t3) 4) 14
  let tfine := lo32 (v2 + v3)
  (tfine, sra (tfine * 5 + 128) 8)

/-- The family's temperature formula on the state's registers (R151). -/
def temperature (s : State) : Word × Word :=
  let adc := s.raw[Raw.T]
  if s.family = .A then tempA adc s.cal[Cal.T1] s.cal[Cal.T2] s.cal[Cal.T3]
  else tempB adc s.cal[Cal.T1] s.cal[Cal.T2] s.cal[Cal.T3]

/-- `COMPT` (R151). -/
def execCompt (s : State) : Host.Outcome State Fault Refusal :=
  complete (encode .compt) s <|
    require (s.istate = .ready) .notReady <|
    require (s.family ≠ .U) .family <|
    require (rawValid Raw.T s = true) .invalid <|
    .ok (respond 0 (writeRes Res.T (temperature s).2 (writeRes Res.TFINE (temperature s).1 s)))

/-- `PressA` (R155), W = 64, result Pa × 256. -/
def pressA (adc tf p1 p2 p3 p4 p5 p6 p7 p8 p9 : Word) : Word :=
  let v1 := s64 tf - 128000
  let v2 := v1 * v1 * s64 p6
  let v2 := v2 + shl (v1 * s64 p5) 17
  let v2 := v2 + shl (s64 p4) 35
  let v1 := sra (v1 * v1 * s64 p3) 8 + shl (v1 * s64 p2) 12
  let v1 := sra ((140737488355328 + v1) * s64 p1) 33
  if v1 = 0 then 0
  else
    let p := 1048576 - s64 adc
    let p := tdiv ((shl p 31 - v2) * 3125) v1
    let q := sra p 13
    let v1 := sra (s64 p9 * q * q) 25
    let v2 := sra (s64 p8 * p) 19
    let p := sra (p + v1 + v2) 8 + shl (s64 p7) 4
    lo32 p

/-- `PressB` (R156), W = 32, result Pa. The comparison with 2^30 is on the signed value. -/
def pressB (adc tf p1 p2 p3 p4 p5 p6 p7 p8 p9 p10 : Word) : Word :=
  let v1 := sra tf 1 - 64000
  let a := sra v1 2
  let v2 := sra (sra (a * a) 11 * p6) 2
  let v2 := v2 + shl (v1 * p5) 1
  let v2 := sra v2 2 + shl p4 16
  let v1 := sra (sra (a * a) 13 * shl p3 5) 3 + sra (p2 * v1) 1
  let v1 := sra v1 18
  let v1 := sra ((32768 + v1) * p1) 15
  if v1 = 0 then 0
  else
    let p := 1048576 - adc
    let p := (p - sra v2 12) * 3125
    let p := if (1073741824 : Word).sle p then shl (tdiv p v1) 1 else tdiv (shl p 1) v1
    let b := sra p 3
    let v1 := sra (p9 * sra (b * b) 13) 12
    let v2 := sra (sra p 2 * p8) 13
    let c := sra p 8
    let v3 := sra (c * c * c * p10) 17
    p + sra (v1 + v2 + v3 + shl p7 7) 4

/-- The family's pressure formula on the state's registers (R154). -/
def pressure (s : State) : Word :=
  let adc := s.raw[Raw.P]
  let tf := s.res[Res.TFINE]
  if s.family = .A then
    pressA adc tf s.cal[Cal.P1] s.cal[Cal.P2] s.cal[Cal.P3] s.cal[Cal.P4] s.cal[Cal.P5] s.cal[Cal.P6]
      s.cal[Cal.P7] s.cal[Cal.P8] s.cal[Cal.P9]
  else
    pressB adc tf s.cal[Cal.P1] s.cal[Cal.P2] s.cal[Cal.P3] s.cal[Cal.P4] s.cal[Cal.P5] s.cal[Cal.P6]
      s.cal[Cal.P7] s.cal[Cal.P8] s.cal[Cal.P9] s.cal[Cal.P10]

/-- `COMPP` (R154). -/
def execCompp (s : State) : Host.Outcome State Fault Refusal :=
  complete (encode .compp) s <|
    require (s.istate = .ready) .notReady <|
    require (s.family ≠ .U) .family <|
    require (resValid Res.TFINE s = true) .noFine <|
    require (rawValid Raw.P s = true) .invalid <|
    .ok (respond 0 (writeRes Res.P (pressure s) s))

/-- `HumA` (R158), W = 32, result % × 1024 in 0..102400. -/
def humA (adc tf h1 h2 h3 h4 h5 h6 : Word) : Word :=
  let x := tf - 76800
  let a := shl adc 14 - shl h4 20 - h5 * x
  let a := sra (a + 16384) 15
  let b := sra (x * h6) 10
  let c := sra (x * h3) 11 + 32768
  let d := sra (b * c) 10 + 2097152
  let e := sra (d * h2 + 8192) 14
  let v := a * e
  let g := sra v 15
  let v := v - sra (sra (g * g) 7 * h1) 4
  let v := if v.slt 0 then 0 else v
  let v := if (419430400 : Word).slt v then 419430400 else v
  sra v 12

/-- `HumB` (R159), W = 32, result % × 1000 in 0..100000. -/
def humB (adc tf h1 h2 h3 h4 h5 h6 h7 : Word) : Word :=
  let ts := sra (tf * 5 + 128) 8
  let v1 := adc - h1 * 16 - sra (tdiv (ts * h3) 100) 1
  let i1 := tdiv (ts * h4) 100
  let i2 := tdiv (sra (ts * tdiv (ts * h5) 100) 6) 100
  let v2 := sra (h2 * (i1 + i2 + 16384)) 10
  let v3 := v1 * v2
  let v4 := shl h6 7
  let v4 := sra (v4 + tdiv (ts * h7) 100) 4
  let g := sra v3 14
  let v5 := sra (g * g) 10
  let v6 := sra (v4 * v5) 1
  let h := sra (sra (v3 + v6) 10 * 1000) 12
  if (100000 : Word).slt h then 100000 else if h.slt 0 then 0 else h

/-- The family's humidity formula on the state's registers (R157). -/
def humidity (s : State) : Word :=
  let adc := s.raw[Raw.H]
  let tf := s.res[Res.TFINE]
  if s.family = .A then
    humA adc tf s.cal[Cal.H1] s.cal[Cal.H2] s.cal[Cal.H3] s.cal[Cal.H4] s.cal[Cal.H5] s.cal[Cal.H6]
  else
    humB adc tf s.cal[Cal.H1] s.cal[Cal.H2] s.cal[Cal.H3] s.cal[Cal.H4] s.cal[Cal.H5] s.cal[Cal.H6]
      s.cal[Cal.H7]

/-- `COMPH` (R157). -/
def execComph (s : State) : Host.Outcome State Fault Refusal :=
  complete (encode .comph) s <|
    require (s.istate = .ready) .notReady <|
    require (s.family ≠ .U) .family <|
    require (resValid Res.TFINE s = true) .noFine <|
    require (rawValid Raw.H s = true) .invalid <|
    .ok (respond 0 (writeRes Res.H (humidity s) s))

/-! ### Altitude

R161 bounds ALTFN by a real power. With r = p / q and k a natural number, `k ≤ 4433000 · r^0.1903` is, after raising both
sides to the power 10000, the comparison of integers `altBelow`; `altAbove` is the other direction. So the bound is
tested exactly, without real numbers. -/

/-- `k ≤ 4433000 · (p/q)^0.1903` (R161). -/
def altBelow (p q k : Nat) : Bool := k ^ 10000 * q ^ 1903 ≤ 4433000 ^ 10000 * p ^ 1903

/-- `4433000 · (p/q)^0.1903 ≤ k` (R161). -/
def altAbove (p q k : Nat) : Bool := 4433000 ^ 10000 * p ^ 1903 ≤ k ^ 10000 * q ^ 1903

/-- z is within ALT_TOL of `4433000 · (1 - (p/q)^0.1903)` (R161). -/
def altWithin (p q : Nat) (z : Int) : Bool :=
  altBelow p q (4433000 - z - Config.altTol).toNat &&
    (decide (0 ≤ 4433000 - z + Config.altTol) && altAbove p q (4433000 - z + Config.altTol).toNat)

/-- The largest `k + j` with `j < 2^n` that `altBelow` holds of, found bit by bit. -/
def altRoot (p q : Nat) : Nat → Nat → Nat
  | 0, k => k
  | n + 1, k => if altBelow p q (k + 2 ^ n) then altRoot p q n (k + 2 ^ n) else altRoot p q n k

/-- One altitude within the bound: 4433000 less the integer part of `4433000 · r^0.1903`, which is below 2^29. -/
def altSample (p q : Nat) : Word := BitVec.ofInt 32 (4433000 - (altRoot p q 29 0 : Int))

/-- ALTFN(p, den, slp) (R161): the free value where it is within the bound, and within the bound everywhere. Every
function R161 admits is a value of the free value, and nothing else of it is known (U1; log entries 6 and 7). -/
def altFn (p den slp : Nat) : Word :=
  let z := Config.altFree p den slp
  if altWithin p (den * slp) z.toInt then z else altSample p (den * slp)

/-- `den` of R160: R_P is in Pa × 256 for family A, in Pa for family B. -/
def altDen (f : Family) : Nat := if f = .A then 256 else 1

/-- `ALT` (R160). -/
def execAlt (s : State) : Host.Outcome State Fault Refusal :=
  let p := s.res[Res.P]
  complete (encode .alt) s <|
    require (s.istate = .ready) .notReady <|
    require (s.family ≠ .U) .family <|
    require (resValid Res.P s = true) .invalid <|
    require (s.slpV = true) .invalid <|
    require (p ≠ 0#32) .domain <|
    .ok (respond 0 (writeRes Res.ALT (altFn p.toNat (altDen s.family) s.slp.toNat) s))

end Sys2Proof.Machine
end

