-- ==== Sys2Proof/Machine/GasUv.lean ====
section
/-! DEFINITION. The gas, heater and ultraviolet commands of 43_comp_gas_uv.md: GASRES, HEATRES, HEATDUR, UVI. -/

namespace Sys2Proof.Machine

/-- LUT1[r] (R180), unsigned, held at W = 64. -/
def lut1 (r : BitVec 4) : BitVec 64 :=
  match r.toNat with
  | 5 => 2126008810
  | 7 => 2130303777
  | 10 => 2143188679
  | 11 => 2136746228
  | 13 => 2126008810
  | _ => 2147483647

/-- LUT2[r] (R180), unsigned, held at W = 64. -/
def lut2 (r : BitVec 4) : BitVec 64 :=
  match r.toNat with
  | 0 => 4096000000
  | 1 => 2048000000
  | 2 => 1024000000
  | 3 => 512000000
  | 4 => 255744255
  | 5 => 127110228
  | 6 => 64000000
  | 7 => 32258064
  | 8 => 16016016
  | 9 => 8000000
  | 10 => 4000000
  | 11 => 2000000
  | 12 => 1000000
  | 13 => 500000
  | 14 => 250000
  | _ => 125000

/-- The gas resistance formula (R181), W = 64; r is GRANGE AND 15. A zero denominator gives 0 (R212). -/
def gasResistance (adc grange rse : Word) : Word :=
  let r := grange.setWidth 4
  let v1 := sra ((1340 + 5 * s64 rse) * lut1 r) 16
  let v2 := shl (s64 adc) 15 - 16777216 + v1
  if v2 = 0 then 0
  else
    let v3 := sra (lut2 r * v1) 9
    lo32 (tdiv (v3 + sra v2 1) v2)

/-- `GASRES` (R181). -/
def execGasres (s : State) : Host.Outcome State Fault Refusal :=
  complete (encode .gasres) s <|
    require (s.istate = .ready) .notReady <|
    require (s.family = .B) .family <|
    require (resValid Res.T s = true) .noFine <|
    require (rawValid Raw.G s = true ∧ rawValid Raw.GRANGE s = true) .invalid <|
    .ok (respond 0
      (writeRes Res.G (gasResistance s.raw[Raw.G] s.raw[Raw.GRANGE] s.cal[Cal.RSE]) s))

/-- HEAT_T_MAX (R6, R183): the target temperature clamped to 400. -/
def heatTarget (imm20 : BitVec 20) : Word := if 400 < imm20.toNat then 400 else imm20.setWidth 32

/-- The heater resistance closed form (R183), W = 32; t is the clamped target, rt is R_T. Both computed divisors are
tested; zero gives 0 (R212). The result is a byte, u8. -/
def heaterByte (t rt g1 g2 g3 rr rv : Word) : Word :=
  let amb := tdiv rt 100
  let v1 := tdiv (amb * g3) 1000 * 256
  let k := tdiv (tdiv ((g2 + 154009) * t * 5) 100 + 3276800) 10
  let v2 := (g1 + 784) * k
  let v3 := v1 + tdiv v2 2
  let d1 := rr + 4
  if d1 = 0 then 0
  else
    let v4 := tdiv v3 d1
    let v5 := 131 * rv + 65536
    if v5 = 0 then 0
    else
      let h := (tdiv v4 v5 - 250) * 34
      ((tdiv (h + 50) 100).setWidth 8).setWidth 32

/-- `HEATRES imm` (R183). -/
def execHeatres (imm20 : BitVec 20) (s : State) : Host.Outcome State Fault Refusal :=
  complete (encode (.heatres imm20)) s <|
    require (s.istate = .ready) .notReady <|
    require (s.family = .B) .family <|
    require (resValid Res.T s = true) .noFine <|
    .ok (respond 0
      (writeRes Res.HRES
        (heaterByte (heatTarget imm20) s.res[Res.T] s.cal[Cal.G1] s.cal[Cal.G2] s.cal[Cal.G3] s.cal[Cal.RHR]
          s.cal[Cal.RHV]) s))

/-- `while d > 63 do d = d div 4 ; f = f + 1` (R185), at most `n` times round; a 20-bit d needs at most 10. -/
def heatLoop : Nat → Nat → Nat → Nat × Nat
  | 0, d, f => (d, f)
  | n + 1, d, f => if 63 < d then heatLoop n (d / 4) (f + 1) else (d, f)

/-- The heater duration byte (R185): the sentinel 0xFF from HEAT_DUR_SENTINEL_AT = 252 on, else d + 64·f. -/
def durationByte (imm20 : BitVec 20) : Word :=
  if 252 ≤ imm20.toNat then 0xFF
  else
    let (d, f) := heatLoop 10 imm20.toNat 0
    BitVec.ofNat 32 (d + 64 * f)

/-- `HEATDUR imm` (R185). -/
def execHeatdur (imm20 : BitVec 20) (s : State) : Host.Outcome State Fault Refusal :=
  complete (encode (.heatdur imm20)) s <|
    require (s.istate = .ready) .notReady <|
    require (s.family = .B) .family <|
    .ok (respond 0 (writeRes Res.HDUR (durationByte imm20) s))

/-- `a100` (R187), W = 64, with the coefficients of R186. -/
def uvChannelA (ua c1 c2 dk : Word) : BitVec 64 :=
  100 * (s64 ua - s64 dk) - 222 * (s64 c1 - s64 dk) - 133 * (s64 c2 - s64 dk)

/-- `b100` (R187), W = 64, with the coefficients of R186. -/
def uvChannelB (ub c1 c2 dk : Word) : BitVec 64 :=
  100 * (s64 ub - s64 dk) - 295 * (s64 c1 - s64 dk) - 174 * (s64 c2 - s64 dk)

/-- R_UVI from a100 and b100 (R187): 0 when the weighted sum is not positive, else its quotient by 200000. -/
def uvIndex (a100 b100 : BitVec 64) : Word :=
  let t := 1461 * a100 + 2591 * b100
  if t.sle 0 then 0 else lo32 (t / 200000)

/-- The dark value dk of R187: UVD for UVI.D, else 0. -/
def darkValue (d : Bool) (s : State) : Word := if d then s.raw[Raw.UVD] else 0

/-- The three writes of `UVI` (R187). -/
def writeUv (a100 b100 : BitVec 64) (s : State) : State :=
  writeRes Res.UVI (uvIndex a100 b100) (writeRes Res.UVB (lo32 b100) (writeRes Res.UVA (lo32 a100) s))

/-- `UVI` / `UVI.D` (R187). -/
def execUvi (d : Bool) (s : State) : Host.Outcome State Fault Refusal :=
  complete (encode (.uvi d)) s <|
    require (s.istate = .ready) .notReady <|
    require (s.family = .U) .family <|
    require (rawValid Raw.UVA s = true ∧ rawValid Raw.UVB s = true ∧ rawValid Raw.UVC1 s = true
      ∧ rawValid Raw.UVC2 s = true) .invalid <|
    require (d = true → rawValid Raw.UVD s = true) .invalid <|
    .ok (respond 0
      (writeUv (uvChannelA s.raw[Raw.UVA] s.raw[Raw.UVC1] s.raw[Raw.UVC2] (darkValue d s))
        (uvChannelB s.raw[Raw.UVB] s.raw[Raw.UVC1] s.raw[Raw.UVC2] (darkValue d s)) s))

end Sys2Proof.Machine
end

