-- ==== Sys2Proof/Machine/Dispatch.lean ====
section
/-! DEFINITION. One arm per command, each a direct call of its meaning. The fault latch and E_ILLEGAL stand before
this, in `step` (R203). -/

namespace Sys2Proof.Machine

def exec (i : Instr) (s : State) : Host.Outcome State Fault Refusal :=
  match i with
  | .reset => Sys2Proof.Machine.execReset s
  | .calbegin fam => Sys2Proof.Machine.execCalbegin fam s
  | .calcommit => Sys2Proof.Machine.execCalcommit s
  | .errclr => Sys2Proof.Machine.execErrclr s
  | .cycle => Sys2Proof.Machine.execCycle s
  | .rd rsel => Sys2Proof.Machine.execRd rsel s
  | .setslp imm20 => Sys2Proof.Machine.execSetslp imm20 s
  | .ldb off imm8 => Sys2Proof.Machine.execLdb off imm8 s
  | .dec8 dst sgn offa => Sys2Proof.Machine.execDec8 dst sgn offa s
  | .dec16le dst sgn offa => Sys2Proof.Machine.execDec16le dst sgn offa s
  | .dec16be dst sgn offa => Sys2Proof.Machine.execDec16be dst sgn offa s
  | .dec12hl dst sgn offa offb => Sys2Proof.Machine.execDec12hl dst sgn offa offb s
  | .dec12ms dst sgn offa offb => Sys2Proof.Machine.execDec12ms dst sgn offa offb s
  | .dec20 dst offa => Sys2Proof.Machine.execDec20 dst offa s
  | .decbf dst sgn lsb wm1 offa => Sys2Proof.Machine.execDecbf dst sgn lsb wm1 offa s
  | .decgas offa => Sys2Proof.Machine.execDecgas offa s
  | .compt => Sys2Proof.Machine.execCompt s
  | .compp => Sys2Proof.Machine.execCompp s
  | .comph => Sys2Proof.Machine.execComph s
  | .alt => Sys2Proof.Machine.execAlt s
  | .gasres => Sys2Proof.Machine.execGasres s
  | .heatres imm20 => Sys2Proof.Machine.execHeatres imm20 s
  | .heatdur imm20 => Sys2Proof.Machine.execHeatdur imm20 s
  | .uvi d => Sys2Proof.Machine.execUvi d s

end Sys2Proof.Machine
end

