-- ==== Sys2Proof/Machine/Step.lean ====
section
/-! DEFINITION. One step: the engine takes the next command word and answers it (R2, R16, R60), through the common
front end of R203: the fault latch, then decoding, then the command's own rule. -/

namespace Sys2Proof.Machine

/-- One step (R203). With no command waiting the engine waits (U13, log entry 4). -/
def step (s : State) : Host.Outcome State Fault Refusal :=
  match takeCommand s with
  | none => .next s
  | some (w, t) =>
    if latched w t then .next (ignore t)
    else
      match decode w with
      | .error _ => .next (raise .illegal w t)
      | .ok i => exec i t

/-- s with the word w issued by the host as the very next command (log entry 4). -/
def State.withFetchWord (s : State) (nbits w : Nat) : State :=
  { s with cmds := BitVec.ofNat 32 (w % 2 ^ nbits) :: s.cmds }

end Sys2Proof.Machine
end

