-- ==== Sys2Proof/Formulas.lean ====
section
/-! DEFINITION. The formulas and sets of the rules a second time, as the spec writes them: on mathematical integers, with
`wrapW` (R9, R12) at every node, `sra`, `shl`, `tdiv` of R10, and sets as lists of register numbers. Only statements use
this file; the machine computes on bit vectors (`Machine/Fixed.lean`), and the statements say that the two agree. -/

namespace Sys2Proof.Formulas

open Sys2Proof.Machine

/-! ### R9 to R13 -/

/-- `wrapN(x)` (R9). -/
def wrap (n : Nat) (x : Int) : Int := Int.bmod x (2 ^ n)

/-- `wrap32` (R9). -/
def w32 (x : Int) : Int := wrap 32 x

/-- `wrap64` (R9). -/
def w64 (x : Int) : Int := wrap 64 x

/-- `sra(x, n) = floor(x / 2^n)` (R10). -/
def sra (x : Int) (n : Nat) : Int := x / 2 ^ n

/-- `shl(x, n) = x · 2^n`, not yet wrapped (R10). -/
def shl (x : Int) (n : Nat) : Int := x * 2 ^ n

/-- `tdiv(a, b)`, truncated toward zero, not yet wrapped (R10). -/
def tdiv (a b : Int) : Int := Int.tdiv a b

/-- `sext_N(v)` (R11). -/
def sext (n : Nat) (v : Int) : Int := if v < 2 ^ (n - 1) then v else v - 2 ^ n

/-- The 32-bit pattern `u32(v)` that `x[i] <- v` writes (R13). -/
def u32 (v : Int) : Word := BitVec.ofInt 32 v

/-- `s32(x[i])` of calibration register i (R13). -/
def calS (s : State) (i : Fin 26) : Int := s.cal[i].toInt

/-- `s32(x[32 + k])` (R13). -/
def rawS (s : State) (k : Fin 10) : Int := s.raw[k].toInt

/-- `s32(x[48 + k])` (R13). -/
def resS (s : State) (k : Fin 11) : Int := s.res[k].toInt

/-! ### R22, R25: the sets of a family, as register numbers -/

/-- `REQ[FAMILY]` (R22). -/
def req : Family → List Nat
  | .A => List.range' 0 12 ++ List.range' 13 6
  | .B => List.range' 0 26
  | .U => []

/-- `RAWSET[FAMILY]` (R25). -/
def rawset : Family → List Nat
  | .A => [32, 33, 34]
  | .B => [32, 33, 34, 35, 36]
  | .U => [37, 38, 39, 40, 41]

/-! ### Temperature -/

/-- `TempA` (R152). -/
def tempA (adc t1 t2 t3 : Int) : Int × Int :=
  let a := w32 (sra adc 3 - w32 (shl t1 1))
  let v1 := sra (w32 (a * t2)) 11
  let d := w32 (sra adc 4 - t1)
  let v2 := sra (w32 (sra (w32 (d * d)) 12 * t3)) 14
  let tfine := w32 (v1 + v2)
  let rt := sra (w32 (w32 (tfine * 5) + 128)) 8
  (tfine, rt)

/-- `TempB` (R153). -/
def tempB (adc t1 t2 t3 : Int) : Int × Int :=
  let a := w64 (sra adc 3 - w64 (shl t1 1))
  let v2 := sra (w64 (a * t2)) 11
  let h := sra a 1
  let v3 := sra (w64 (h * h)) 12
  let v3 := sra (w64 (v3 * w64 (shl t3 4))) 14
  let tfine := w32 (w64 (v2 + v3))
  let rt := sra (w32 (w32 (tfine * 5) + 128)) 8
  (tfine, rt)

/-! ### Pressure -/

/-- The intermediate denominator of `PressA`, `v1` after its third assignment (R155). -/
def pressADen (tf p1 p2 p3 : Int) : Int :=
  let v1 := w64 (tf - 128000)
  let v1 := w64 (sra (w64 (w64 (v1 * v1) * p3)) 8 + w64 (shl (w64 (v1 * p2)) 12))
  sra (w64 (w64 (140737488355328 + v1) * p1)) 33

/-- `PressA` (R155), before `u32`. -/
def pressA (adc tf p1 p2 p3 p4 p5 p6 p7 p8 p9 : Int) : Int :=
  let v1 := w64 (tf - 128000)
  let v2 := w64 (w64 (v1 * v1) * p6)
  let v2 := w64 (v2 + w64 (shl (w64 (v1 * p5)) 17))
  let v2 := w64 (v2 + w64 (shl p4 35))
  let v1 := pressADen tf p1 p2 p3
  if v1 = 0 then 0
  else
    let p := w64 (1048576 - adc)
    let p := w64 (tdiv (w64 (w64 (w64 (shl p 31) - v2) * 3125)) v1)
    let q := sra p 13
    let v1 := sra (w64 (w64 (p9 * q) * q)) 25
    let v2 := sra (w64 (p8 * p)) 19
    let p := w64 (sra (w64 (w64 (p + v1) + v2)) 8 + w64 (shl p7 4))
    p

/-- The intermediate denominator of `PressB`, `v1` after its last assignment before the test (R156). -/
def pressBDen (tf p1 p2 p3 : Int) : Int :=
  let v1 := w32 (sra tf 1 - 64000)
  let a := sra v1 2
  let v1 := w32 (sra (w32 (sra (w32 (a * a)) 13 * w32 (shl p3 5))) 3 + sra (w32 (p2 * v1)) 1)
  let v1 := sra v1 18
  sra (w32 (w32 (32768 + v1) * p1)) 15

/-- `PressB` (R156), before `u32`. -/
def pressB (adc tf p1 p2 p3 p4 p5 p6 p7 p8 p9 p10 : Int) : Int :=
  let v1 := w32 (sra tf 1 - 64000)
  let a := sra v1 2
  let v2 := sra (w32 (sra (w32 (a * a)) 11 * p6)) 2
  let v2 := w32 (v2 + w32 (shl (w32 (v1 * p5)) 1))
  let v2 := w32 (sra v2 2 + w32 (shl p4 16))
  let v1 := pressBDen tf p1 p2 p3
  if v1 = 0 then 0
  else
    let p := w32 (1048576 - adc)
    let p := w32 (w32 (p - sra v2 12) * 3125)
    let p := if p ≥ 1073741824 then w32 (shl (w32 (tdiv p v1)) 1) else w32 (tdiv (w32 (shl p 1)) v1)
    let b := sra p 3
    let v1 := sra (w32 (p9 * sra (w32 (b * b)) 13)) 12
    let v2 := sra (w32 (sra p 2 * p8)) 13
    let c := sra p 8
    let v3 := sra (w32 (w32 (w32 (c * c) * c) * p10)) 17
    w32 (p + sra (w32 (w32 (w32 (v1 + v2) + v3) + w32 (shl p7 7))) 4)

/-! ### Humidity -/

/-- `HumA` (R158). -/
def humA (adc tf h1 h2 h3 h4 h5 h6 : Int) : Int :=
  let x := w32 (tf - 76800)
  let a := w32 (w32 (w32 (shl adc 14) - w32 (shl h4 20)) - w32 (h5 * x))
  let a := sra (w32 (a + 16384)) 15
  let b := sra (w32 (x * h6)) 10
  let c := w32 (sra (w32 (x * h3)) 11 + 32768)
  let d := w32 (sra (w32 (b * c)) 10 + 2097152)
  let e := sra (w32 (w32 (d * h2) + 8192)) 14
  let v := w32 (a * e)
  let g := sra v 15
  let v := w32 (v - sra (w32 (sra (w32 (g * g)) 7 * h1)) 4)
  let v := if v < 0 then 0 else v
  let v := if v > 419430400 then 419430400 else v
  sra v 12

/-- `HumB` (R159). -/
def humB (adc tf h1 h2 h3 h4 h5 h6 h7 : Int) : Int :=
  let ts := sra (w32 (w32 (tf * 5) + 128)) 8
  let v1 := w32 (w32 (adc - w32 (h1 * 16)) - sra (w32 (tdiv (w32 (ts * h3)) 100)) 1)
  let i1 := w32 (tdiv (w32 (ts * h4)) 100)
  let i2 := w32 (tdiv (sra (w32 (ts * w32 (tdiv (w32 (ts * h5)) 100))) 6) 100)
  let v2 := sra (w32 (h2 * w32 (w32 (i1 + i2) + 16384))) 10
  let v3 := w32 (v1 * v2)
  let v4 := w32 (shl h6 7)
  let v4 := sra (w32 (v4 + w32 (tdiv (w32 (ts * h7)) 100))) 4
  let g := sra v3 14
  let v5 := sra (w32 (g * g)) 10
  let v6 := sra (w32 (v4 * v5)) 1
  let h := sra (w32 (sra (w32 (v3 + v6)) 10 * 1000)) 12
  if h > 100000 then 100000 else if h < 0 then 0 else h

/-! ### Gas, heater and ultraviolet -/

/-- LUT1 (R180). -/
def lut1 : List Int :=
  [2147483647, 2147483647, 2147483647, 2147483647, 2147483647, 2126008810, 2147483647, 2130303777,
   2147483647, 2147483647, 2143188679, 2136746228, 2147483647, 2126008810, 2147483647, 2147483647]

/-- LUT2 (R180). -/
def lut2 : List Int :=
  [4096000000, 2048000000, 1024000000, 512000000, 255744255, 127110228, 64000000, 32258064,
   16016016, 8000000, 4000000, 2000000, 1000000, 500000, 250000, 125000]

/-- `v1` of GASRES (R181). -/
def gasV1 (r : Nat) (rse : Int) : Int := sra (w64 (w64 (1340 + w64 (5 * rse)) * lut1.getD r 0)) 16

/-- The denominator `v2` of GASRES (R181). -/
def gasDen (adc : Int) (r : Nat) (rse : Int) : Int :=
  w64 (w64 (w64 (shl adc 15) - 16777216) + gasV1 r rse)

/-- The formula of GASRES (R181), before `u32`; r is the table index. -/
def gasres (adc : Int) (r : Nat) (rse : Int) : Int :=
  let v1 := gasV1 r rse
  let v2 := gasDen adc r rse
  if v2 = 0 then 0
  else
    let v3 := sra (w64 (lut2.getD r 0 * v1)) 9
    w64 (tdiv (w64 (v3 + sra v2 1)) v2)

/-- The formula of HEATRES (R183), a byte; imm is the operand, rt is R_T. -/
def heatres (imm rt g1 g2 g3 rr rv : Int) : Int :=
  let t := if imm > 400 then 400 else imm
  let amb := w32 (tdiv rt 100)
  let v1 := w32 (w32 (tdiv (w32 (amb * g3)) 1000) * 256)
  let k := w32 (tdiv (w32 (w32 (tdiv (w32 (w32 (w32 (g2 + 154009) * t) * 5)) 100) + 3276800)) 10)
  let v2 := w32 (w32 (g1 + 784) * k)
  let v3 := w32 (v1 + w32 (tdiv v2 2))
  let d1 := w32 (rr + 4)
  if d1 = 0 then 0
  else
    let v4 := w32 (tdiv v3 d1)
    let v5 := w32 (w32 (131 * rv) + 65536)
    if v5 = 0 then 0
    else
      let h := w32 (w32 (w32 (tdiv v4 v5) - 250) * 34)
      w32 (tdiv (w32 (h + 50)) 100) % 256

/-- What the loop of HEATDUR leaves below the sentinel, and the sentinel (R185). -/
def heatdur (imm : Nat) : Nat :=
  if imm ≥ 252 then 255 else if imm > 63 then imm / 4 + 64 * 1 else imm + 64 * 0

/-- `a100` of UVI (R187). -/
def uvA (ua c1 c2 dk : Int) : Int :=
  w64 (w64 (w64 (100 * w64 (ua - dk)) - w64 (222 * w64 (c1 - dk))) - w64 (133 * w64 (c2 - dk)))

/-- `b100` of UVI (R187). -/
def uvB (ub c1 c2 dk : Int) : Int :=
  w64 (w64 (w64 (100 * w64 (ub - dk)) - w64 (295 * w64 (c1 - dk))) - w64 (174 * w64 (c2 - dk)))

/-- R_UVI from a100 and b100 (R187), before `u32`. -/
def uvI (a100 b100 : Int) : Int :=
  let s := w64 (w64 (1461 * a100) + w64 (2591 * b100))
  if s ≤ 0 then 0 else s / 200000

end Sys2Proof.Formulas
end

