-- ==== Sys2Proof/Safety.lean ====
section
/-! DEFINITION. What statements call a good state, and the words they use: the invariant of every reachable state, the
states that differ only in what no command can observe, the faults of a command in the order of R203, and the shapes of
next states. Nothing of the machine depends on this file. -/

namespace Sys2Proof.Safety

open Sys2Proof.Machine Sys2Proof.Formulas

/-! ### The invariant -/

/-- The result registers a family can have (R3, R27, R150). -/
def resset : Family → List Nat
  | .A => [48, 49, 50, 51, 52]
  | .B => [48, 49, 50, 51, 52, 53, 54, 55]
  | .U => [56, 57, 58]

/-- What every step keeps and the reset state has. -/
structure Inv (s : State) : Prop where
  /-- BUF's canonical form (R50) -/
  mem : Memory.wf s.buf
  /-- while FAULT = 0, ERR = 0 and ECMD = 0 (R32) -/
  noFault : s.fault = false → s.err = .none ∧ s.ecmd = 0
  /-- while FAULT = 1, ERR holds a fault's code (R32) -/
  aFault : s.fault = true → s.err ≠ .none
  /-- while Uninitialized, FAMILY reads 0 (R31) -/
  family : s.istate = .uninitialized → s.family = .A
  /-- populated registers are in REQ[FAMILY], and only from FetchingCalibration on (R23, R102) -/
  calIn : ∀ i : Fin 26, calValid i s = true → i.val ∈ req s.family ∧ s.istate ≠ .uninitialized
  /-- in Ready every register of REQ[FAMILY] is populated (R23) -/
  calAll : s.istate = .ready → ∀ i : Fin 26, i.val ∈ req s.family → calValid i s = true
  /-- valid raw registers are in RAWSET[FAMILY], and only in Ready (R25, R124) -/
  rawIn : ∀ k : Fin 10, rawValid k s = true → 32 + k.val ∈ rawset s.family ∧ s.istate = .ready
  /-- valid results are ones the family's commands write, and only in Ready (R27, R150) -/
  resIn : ∀ k : Fin 11, resValid k s = true → 48 + k.val ∈ resset s.family ∧ s.istate = .ready
  /-- SLP is 1..1048575 (R33) -/
  slpPos : s.slpV = true → s.slp ≠ 0
  /-- a populated calibration register reads -32768..1048575 (R133) -/
  calRange : ∀ i : Fin 26, calValid i s = true → -32768 ≤ calS s i ∧ calS s i ≤ 1048575
  /-- a valid raw register reads 0..1048575 (R25, R133) -/
  rawRange : ∀ k : Fin 10, rawValid k s = true → 0 ≤ rawS s k ∧ rawS s k ≤ 1048575
  /-- TFINE and R_T are valid together (R151) -/
  fine : resValid Res.TFINE s = resValid Res.T s
  /-- pressure, humidity, gas and heater resistance only after a temperature of the same cycle (R29, R235 Z1) -/
  order : (resValid Res.P s = true ∨ resValid Res.H s = true ∨ resValid Res.G s = true
    ∨ resValid Res.HRES s = true) → resValid Res.TFINE s = true
  /-- an altitude only after a pressure of the same cycle and with SLP set (R160) -/
  altAfter : resValid Res.ALT s = true → resValid Res.P s = true ∧ s.slpV = true
  /-- R_H is 0..102400 (family A) or 0..100000 (family B) (R27, R157) -/
  humRange : resValid Res.H s = true →
    0 ≤ resS s Res.H ∧ resS s Res.H ≤ (if s.family = .A then 102400 else 100000)
  /-- R_HRES and R_HDUR are bytes (R27) -/
  heatBytes : (resValid Res.HRES s = true → s.res[Res.HRES].toNat ≤ 255) ∧
    (resValid Res.HDUR s = true → s.res[Res.HDUR].toNat ≤ 255)

/-! ### What no command can observe -/

/-- s and t differ at most in the contents of registers whose valid bit is 0 and of SLP while SLPV = 0
(R24, R39, R230, U4). -/
structure SameVisible (s t : State) : Prop where
  buf : s.buf = t.buf
  calV : s.calV = t.calV
  rawV : s.rawV = t.rawV
  resV : s.resV = t.resV
  slpV : s.slpV = t.slpV
  istate : s.istate = t.istate
  family : s.family = t.family
  fault : s.fault = t.fault
  err : s.err = t.err
  ecmd : s.ecmd = t.ecmd
  cmds : s.cmds = t.cmds
  resp : s.resp = t.resp
  cal : ∀ i : Fin 26, calValid i s = true → s.cal[i] = t.cal[i]
  raw : ∀ k : Fin 10, rawValid k s = true → s.raw[k] = t.raw[k]
  res : ∀ k : Fin 11, resValid k s = true → s.res[k] = t.res[k]
  slp : s.slpV = true → s.slp = t.slp

/-- In Ready every calibration register of the family is populated (R23), the clause of `Inv` that lets compensation
commands read calibration registers without a test (R150). -/
def CalComplete (s : State) : Prop :=
  s.istate = .ready → ∀ i : Fin 26, i.val ∈ req s.family → calValid i s = true

/-! ### Shapes of next states -/

/-- The state after `raise E_X` for the command word w (R15, R204). -/
def faulted (e : ErrCode) (w : Word) (s : State) : State :=
  { s with fault := true, err := e, ecmd := w, resp := some (.fault e) }

/-- `x[i] <- v`, `V[i] <- 1`, response `ok(0)`, and nothing else (R13). -/
def calWritten (i : Fin 26) (v : Int) (s : State) : State :=
  { s with cal := s.cal.set i (u32 v), calV := s.calV ||| BitVec.twoPow 26 i, resp := some (.ok 0) }

/-- `x[32 + k] <- v`, `V[32 + k] <- 1`, response `ok(0)`, and nothing else (R13). -/
def rawWritten (k : Fin 10) (v : Int) (s : State) : State :=
  { s with raw := s.raw.set k (u32 v), rawV := s.rawV ||| BitVec.twoPow 10 k, resp := some (.ok 0) }

/-- `x[48 + k] <- v`, `V[48 + k] <- 1`, response `ok(0)`, and nothing else (R13). -/
def resWritten (k : Fin 11) (v : Int) (s : State) : State :=
  { s with res := s.res.set k (u32 v), resV := s.resV ||| BitVec.twoPow 11 k, resp := some (.ok 0) }

/-! ### Decode commands -/

/-- A decode to calibration register i may write it (R123). -/
def calOpen (rd : BitVec 6) (i : Fin 26) (s : State) : Prop :=
  rd.toNat = i.val ∧ s.istate = .fetching ∧ i.val ∈ req s.family ∧ calValid i s = false

/-- A decode to raw register 32 + k may write it (R124). -/
def rawOpen (rd : BitVec 6) (k : Fin 10) (s : State) : Prop :=
  rd.toNat = 32 + k.val ∧ s.istate = .ready ∧ 32 + k.val ∈ rawset s.family ∧ rawValid k s = false

/-- `rd` and `offs` of a decode command other than DECGAS (R53, R121). -/
def decodeForm : Instr → Option (BitVec 6 × List Nat)
  | .dec8 dst _ a => some (dst, [a.toNat])
  | .dec16le dst _ a => some (dst, [a.toNat, a.toNat + 1])
  | .dec16be dst _ a => some (dst, [a.toNat, a.toNat + 1])
  | .dec12hl dst _ a b => some (dst, [a.toNat, b.toNat])
  | .dec12ms dst _ a b => some (dst, [a.toNat, b.toNat])
  | .dec20 dst a => some (dst, [a.toNat, a.toNat + 1, a.toNat + 2])
  | .decbf dst _ _ _ a => some (dst, [a.toNat])
  | _ => none

/-- The least and the greatest signed reading a decode command can leave (R133). -/
def decodeRange : Instr → Int × Int
  | .dec8 _ s _ => if s then (-128, 127) else (0, 255)
  | .dec16le _ s _ => if s then (-32768, 32767) else (0, 65535)
  | .dec16be _ s _ => if s then (-32768, 32767) else (0, 65535)
  | .dec12hl _ s _ _ => if s then (-2048, 2047) else (0, 4095)
  | .dec12ms _ s _ _ => if s then (-2048, 2047) else (0, 4095)
  | .dec20 _ _ => (0, 1048575)
  | .decbf _ s _ wm1 _ => if s then (-2 ^ wm1.toNat, 2 ^ wm1.toNat - 1) else (0, 2 ^ (wm1.toNat + 1) - 1)
  | _ => (0, 0)

/-! ### The faults of a command, test by test, in the classes of R203 -/

/-- The destinations of a decode command, as register numbers (R80, R132). -/
def destinations : Instr → List Nat
  | .decgas _ => [35, 36]
  | i => match decodeForm i with
    | some (dst, _) => [dst.toNat]
    | none => []

/-- The BUF offsets a command reads (R53, R121). -/
def sources : Instr → List Nat
  | .decgas a => [a.toNat, a.toNat + 1]
  | i => match decodeForm i with
    | some (_, offs) => offs
    | none => []

/-- `V[n]` of register number n (R20). -/
def validReg (n : Nat) (s : State) : Bool :=
  if n < 26 then s.calV.getLsbD n
  else if 32 ≤ n ∧ n < 42 then s.rawV.getLsbD (n - 32)
  else if 48 ≤ n ∧ n < 59 then s.resV.getLsbD (n - 48)
  else if n = 60 then s.slpV
  else true

/-- Point 3 of R203: the InitializationState machine. -/
def stateFault (i : Instr) (s : State) : Option ErrCode :=
  match i with
  | .calbegin _ => if s.istate = .uninitialized then none else some .seq
  | .calcommit => if s.istate = .fetching then none else some .seq
  | .cycle | .compt | .compp | .comph | .alt | .gasres | .heatres _ | .heatdur _ | .uvi _ =>
    if s.istate = .ready then none else some .notReady
  | i => match destinations i with
    | [] => none
    | d :: _ =>
      if d < 26 then
        match s.istate with
        | .uninitialized => some .seq
        | .fetching => none
        | .ready => some .calLocked
      else if s.istate = .ready then none else some .notReady

/-- Point 4 of R203: the family has neither the register nor the command. -/
def familyFault (i : Instr) (s : State) : Option ErrCode :=
  match i with
  | .compt | .compp | .comph | .alt => if s.family = .U then some .family else none
  | .gasres | .heatres _ | .heatdur _ => if s.family = .B then none else some .family
  | .uvi _ => if s.family = .U then none else some .family
  | i => if ∀ d ∈ destinations i, d ∈ req s.family ++ rawset s.family then none else some .family

/-- Point 5 of R203: a BUF offset beyond 63. -/
def rangeFault (i : Instr) : Option ErrCode :=
  if ∀ a ∈ sources i, a ≤ 63 then none else some .range

/-- Point 6 of R203 for BUF cells. -/
def bufferFault (i : Instr) (s : State) : Option ErrCode :=
  if ∀ a ∈ sources i, ∃ b, Memory.read s.buf a = some b then none else some .bufInvalid

/-- The registers whose absence is E_NOFINE (R201, R203 point 6). -/
def fineSources : Instr → List Nat
  | .compp | .comph => [48]
  | .gasres | .heatres _ => [49]
  | _ => []

/-- The other registers a command needs valid (R203 point 6; R106, R151, R154, R157, R160, R181, R187). -/
def otherSources : Instr → List Nat
  | .rd rsel => [rsel.toNat]
  | .compt => [32]
  | .compp => [33]
  | .comph => [34]
  | .alt => [50, 60]
  | .gasres => [35, 36]
  | .uvi d => if d then [37, 38, 39, 40, 41] else [37, 38, 39, 40]
  | _ => []

/-- Point 6 of R203 for registers: E_NOFINE before E_INVALID. -/
def sourceFault (i : Instr) (s : State) : Option ErrCode :=
  if ∀ n ∈ fineSources i, validReg n s = true then
    if ∀ n ∈ otherSources i, validReg n s = true then none else some .invalid
  else some .noFine

/-- Point 7 of R203: a destination that may be written once and has been. -/
def onceFault (i : Instr) (s : State) : Option ErrCode :=
  if ∀ d ∈ destinations i, validReg d s = false then none
  else if ∀ d ∈ destinations i, d < 26 then some .calLocked else some .rawSet

/-- Point 8 of R203: the operand domain. -/
def domainFault (i : Instr) (s : State) : Option ErrCode :=
  match i with
  | .setslp imm => if imm.toNat = 0 then some .domain else none
  | .alt => if s.res[Res.P].toNat = 0 then some .domain else none
  | _ => none

/-- Point 9 of R203: CALCOMMIT with a populated set other than REQ[FAMILY]. -/
def completenessFault (i : Instr) (s : State) : Option ErrCode :=
  match i with
  | .calcommit => if ∀ k : Fin 26, calValid k s = true ↔ k.val ∈ req s.family then none else some .calPartial
  | _ => none

/-- The fault of a legal command: the first test that fires, in the order of R203. -/
def firstFault (i : Instr) (s : State) : Option ErrCode :=
  stateFault i s <|> familyFault i s <|> rangeFault i <|> bufferFault i s <|> sourceFault i s
    <|> onceFault i s <|> domainFault i s <|> completenessFault i s

/-- A legal command raises the fault its rule's tests say, in their order, and changes nothing but the latch (R203,
R204). -/
def checked (i : Instr) : Prop :=
  i.wf = true → ∀ (s : State) (e : ErrCode), firstFault i s = some e → exec i s = .next (faulted e (encode i) s)

/-! ### After reset -/

/-- What a legal command answers when it is the first after reset: which ones fault and with what (R231), SETSLP 0 by
R107, and the datum of RD of 61..68 by the reset table R39. -/
def firstAnswer : Instr → Response
  | .reset | .errclr | .ldb _ _ | .calbegin _ => .ok 0
  | .setslp imm => if imm.toNat = 0 then .fault .domain else .ok 0
  | .rd rsel => if 61 ≤ rsel.toNat then .ok 0 else .fault .invalid
  | .calcommit => .fault .seq
  | .cycle | .compt | .compp | .comph | .alt | .gasres | .heatres _ | .heatdur _ | .uvi _ | .decgas _ =>
    .fault .notReady
  | i => match destinations i with
    | d :: _ => if d < 26 then .fault .seq else .fault .notReady
    | [] => .ok 0

/-- The response is `ok(d)` for some d. -/
def answersOk (t : State) : Prop := ∃ d, t.resp = some (.ok d)

/-- One of the eight compensation commands (R3). -/
def isCompensation : Instr → Bool
  | .compt | .compp | .comph | .alt | .gasres | .heatres _ | .heatdur _ | .uvi _ => true
  | _ => false

/-! ### The inputs and results of compensation (R40) -/

/-- The calibration registers a compensation command of a family reads (R40). -/
def calInputs : Instr → Family → List (Fin 26)
  | .compt, _ => [Cal.T1, Cal.T2, Cal.T3]
  | .compp, .B => [Cal.P1, Cal.P2, Cal.P3, Cal.P4, Cal.P5, Cal.P6, Cal.P7, Cal.P8, Cal.P9, Cal.P10]
  | .compp, _ => [Cal.P1, Cal.P2, Cal.P3, Cal.P4, Cal.P5, Cal.P6, Cal.P7, Cal.P8, Cal.P9]
  | .comph, .B => [Cal.H1, Cal.H2, Cal.H3, Cal.H4, Cal.H5, Cal.H6, Cal.H7]
  | .comph, _ => [Cal.H1, Cal.H2, Cal.H3, Cal.H4, Cal.H5, Cal.H6]
  | .gasres, _ => [Cal.RSE]
  | .heatres _, _ => [Cal.G1, Cal.G2, Cal.G3, Cal.RHR, Cal.RHV]
  | _, _ => []

/-- The raw registers it reads (R40). -/
def rawInputs : Instr → List (Fin 10)
  | .compt => [Raw.T]
  | .compp => [Raw.P]
  | .comph => [Raw.H]
  | .gasres => [Raw.G, Raw.GRANGE]
  | .uvi d => if d then [Raw.UVA, Raw.UVB, Raw.UVC1, Raw.UVC2, Raw.UVD]
    else [Raw.UVA, Raw.UVB, Raw.UVC1, Raw.UVC2]
  | _ => []

/-- The result registers it reads (R40). -/
def resInputs : Instr → List (Fin 11)
  | .compp | .comph => [Res.TFINE]
  | .alt => [Res.P]
  | .heatres _ => [Res.T]
  | _ => []

/-- The result registers it writes (R27, R40). -/
def resOutputs : Instr → List (Fin 11)
  | .compt => [Res.TFINE, Res.T]
  | .compp => [Res.P]
  | .comph => [Res.H]
  | .alt => [Res.ALT]
  | .gasres => [Res.G]
  | .heatres _ => [Res.HRES]
  | .heatdur _ => [Res.HDUR]
  | .uvi _ => [Res.UVA, Res.UVB, Res.UVI]
  | _ => []

/-- s and t hold the same inputs of the command i (R18, R40). -/
def sameInputs (i : Instr) (s t : State) : Prop :=
  s.family = t.family ∧ (i = .alt → s.slp = t.slp) ∧
    (∀ k ∈ calInputs i s.family, s.cal[k] = t.cal[k]) ∧
    (∀ k ∈ rawInputs i, s.raw[k] = t.raw[k]) ∧ (∀ k ∈ resInputs i, s.res[k] = t.res[k])

/-! ### The rows of the opcode map -/

/-- One row of R78: `match`, `mask`, and its extra condition on the word. -/
structure Row where
  pattern : Nat
  mask : Nat
  extra : Nat → Bool

/-- `v[hi:lo]` (R8). -/
def slice (v hi lo : Nat) : Nat := v / 2 ^ lo % 2 ^ (hi + 1 - lo)

/-- The `dest` condition of R80 on a word. -/
def destExtra (v : Nat) : Bool :=
  let dst := slice v 25 20
  dst ≤ 25 || (32 ≤ dst && dst ≤ 41 && slice v 19 19 == 0)

/-- The 24 rows of R78, in its order, with the extra conditions of its column, of R80 and of R73. -/
def rows : List Row :=
  let any : Nat → Bool := fun _ => true
  [⟨0x04000000, 0xFFFFFFFF, any⟩,
   ⟨0x08000000, 0xFFFFFFFC, fun v => slice v 1 0 ≠ 3⟩,
   ⟨0x0C000000, 0xFFFFFFFF, any⟩,
   ⟨0x10000000, 0xFFFFFFFF, any⟩,
   ⟨0x14000000, 0xFFFFFFFF, any⟩,
   ⟨0x18000000, 0xFFFFFF80, fun v =>
      let n := slice v 6 0
      n ≤ 25 || (32 ≤ n && n ≤ 41) || (48 ≤ n && n ≤ 58) || (60 ≤ n && n ≤ 68)⟩,
   ⟨0x1C000000, 0xFFF00000, any⟩,
   ⟨0x20000000, 0xFFFFC000, any⟩] ++
  [⟨0x40000000, 0xFC07F03F, destExtra⟩,
   ⟨0x44000000, 0xFC07F03F, destExtra⟩,
   ⟨0x48000000, 0xFC07F03F, destExtra⟩,
   ⟨0x4C000000, 0xFC07F000, destExtra⟩,
   ⟨0x50000000, 0xFC07F000, destExtra⟩,
   ⟨0x54000000, 0xFC0FF03F, destExtra⟩,
   ⟨0x58000000, 0xFC00103F, fun v => destExtra v && slice v 18 16 + slice v 15 13 + 1 ≤ 8⟩,
   ⟨0x5C000000, 0xFFFFF03F, any⟩] ++
  [⟨0x80000000, 0xFFFFFFFF, any⟩,
   ⟨0x84000000, 0xFFFFFFFF, any⟩,
   ⟨0x88000000, 0xFFFFFFFF, any⟩,
   ⟨0x8C000000, 0xFFFFFFFF, any⟩,
   ⟨0x90000000, 0xFFFFFFFF, any⟩,
   ⟨0x94000000, 0xFFF00000, any⟩,
   ⟨0x98000000, 0xFFF00000, any⟩,
   ⟨0x9C000000, 0xFFFFFFFE, any⟩]

/-- The row of `rows` a command belongs to (R78). -/
def rowOf : Instr → Nat
  | .reset => 0
  | .calbegin _ => 1
  | .calcommit => 2
  | .errclr => 3
  | .cycle => 4
  | .rd _ => 5
  | .setslp _ => 6
  | .ldb _ _ => 7
  | .dec8 _ _ _ => 8
  | .dec16le _ _ _ => 9
  | .dec16be _ _ _ => 10
  | .dec12hl _ _ _ _ => 11
  | .dec12ms _ _ _ _ => 12
  | .dec20 _ _ => 13
  | .decbf _ _ _ _ _ => 14
  | .decgas _ => 15
  | .compt => 16
  | .compp => 17
  | .comph => 18
  | .alt => 19
  | .gasres => 20
  | .heatres _ => 21
  | .heatdur _ => 22
  | .uvi _ => 23

/-- The word is a legal encoding of the row (R78). -/
def Row.accepts (r : Row) (w : Word) : Bool := w.toNat &&& r.mask == r.pattern && r.extra w.toNat

end Sys2Proof.Safety
end

