-- ==== Sys2Proof/Certificates/Slice0/Obligations.lean ====
section
/-! DEFINITION. The statements for the provers. Each `def Obligations.<Name> : Prop` names in its docstring the rule of
spec/ it formalises, or says that it is the model's own choice and which log entry holds it. -/

open Sys2Proof Sys2Proof.Machine Sys2Proof.Safety

/-! ### Encoding -/

/-- R86: the worked encodings decode to the commands they stand for. -/
def Obligations.DecodeReadsWorkedEncodings : Prop :=
  decode 0x08000001 = .ok (.calbegin 1) ∧
  decode 0x2000054A = .ok (.ldb 5 0x4A) ∧
  decode 0x44180080 = .ok (.dec16le 1 true 2) ∧
  decode 0x4D00075E = .ok (.dec12hl 16 false 29 30) ∧
  decode 0x511007DE = .ok (.dec12ms 17 false 31 30) ∧
  decode 0x560000C0 = .ok (.dec20 32 3) ∧
  decode 0x599C6AC0 = .ok (.decbf 25 true 4 3 43) ∧
  decode 0x18000031 = .ok (.rd 49) ∧
  decode 0x98000064 = .ok (.heatdur 100) ∧
  decode 0x9C000001 = .ok (.uvi true) ∧
  decode 0x1C018BCD = .ok (.setslp 101325)

/-- R70 to R81: the decoder reads every legal command back from its word. -/
def Obligations.DecodeEncodeAgree : Prop :=
  ∀ i : Instr, i.wf = true → decode (encode i) = .ok i

/-- R79, R81: a word that decodes is the word of a legal command, so no bit of it is ignored. -/
def Obligations.DecodeDropsNoBit : Prop :=
  ∀ (w : Word) (i : Instr), decode w = .ok i → i.wf = true ∧ encode i = w

/-- R78: a word is legal for a row of the opcode map, by match, mask and extra condition, exactly when it decodes to a
command of that row; so no two rows match the same word (R83). -/
def Obligations.LegalWordsAreTheTableRows : Prop :=
  (∀ (w : Word) (k : Fin rows.length), rows[k].accepts w = true ↔ ∃ i, decode w = .ok i ∧ rowOf i = k.val) ∧
  (∀ (w : Word) (j k : Fin rows.length), rows[j].accepts w = true → rows[k].accepts w = true → j = k)

/-! ### The step and its front end -/

/-- R203, R60: with FAULT = 0 a legal command word is taken from the port and its own rule is run. -/
def Obligations.StepRunsTheDecodedCommand : Prop :=
  ∀ (s : State) (w : Word) (rest : List Word) (i : Instr),
    s.fault = false → s.cmds = w :: rest → decode w = .ok i →
    i.wf = true ∧ step s = exec i { s with cmds := rest }

/-- The same from the command's side: for every instruction, legal or not, stepping its word is running its meaning;
for an illegal one both raise E_ILLEGAL (log entry 8). -/
def Obligations.StepRunsTheEncodedCommand : Prop :=
  ∀ (s : State) (i : Instr) (rest : List Word),
    s.fault = false → s.cmds = encode i :: rest → step s = exec i { s with cmds := rest }

/-- R82: an illegal word raises E_ILLEGAL and changes nothing else when FAULT = 0, and is ignored when FAULT = 1; the
all-zero and the all-one word are illegal. -/
def Obligations.IllegalWordFaults : Prop :=
  (∀ (s : State) (w : Word) (rest : List Word), s.cmds = w :: rest → (∀ r ∈ rows, r.accepts w = false) →
    (s.fault = false → step s = .next
      { s with cmds := rest, fault := true, err := .illegal, ecmd := w, resp := some (.fault .illegal) }) ∧
    (s.fault = true → step s = .next { s with cmds := rest, resp := some .ignored })) ∧
  (∀ r ∈ rows, r.accepts 0x00000000 = false ∧ r.accepts 0xFFFFFFFF = false)

/-- The model's choice (log entry 8): an instruction that is no legal command raises E_ILLEGAL with its own word. -/
def Obligations.IllFormedCommandsAreIllegal : Prop :=
  ∀ (i : Instr) (s : State), i.wf = false → exec i s = .next (faulted .illegal (encode i) s)

/-- R205: while FAULT = 1 exactly RESET, ERRCLR and RD of 61..68 are executed, by their own rules; every other word is
answered `ignored` and changes nothing. -/
def Obligations.LatchAcceptsExactlyThree : Prop :=
  ∀ (s : State) (w : Word) (rest : List Word), s.fault = true → s.cmds = w :: rest →
    (w = 0x04000000 → step s = exec .reset { s with cmds := rest }) ∧
    (w = 0x10000000 → step s = exec .errclr { s with cmds := rest }) ∧
    (∀ n : BitVec 7, 61 ≤ n.toNat → n.toNat ≤ 68 → w = 0x18000000 ||| n.setWidth 32 →
      step s = exec (.rd n) { s with cmds := rest }) ∧
    (w ≠ 0x04000000 → w ≠ 0x10000000 →
      (∀ n : BitVec 7, 61 ≤ n.toNat → n.toNat ≤ 68 → w ≠ 0x18000000 ||| n.setWidth 32) →
      step s = .next { s with cmds := rest, resp := some .ignored })

/-- R206: while the latch is set no command can fault, and the latch changes only by being cleared whole. -/
def Obligations.LatchedCommandsNeverFault : Prop :=
  ∀ (s t : State) (w : Word) (rest : List Word), s.fault = true → s.cmds = w :: rest → step s = .next t →
    (∀ e, t.resp ≠ some (.fault e)) ∧
    ((t.fault = true ∧ t.err = s.err ∧ t.ecmd = s.ecmd) ∨
      (t.fault = false ∧ t.err = .none ∧ t.ecmd = 0 ∧ (w = 0x04000000 ∨ w = 0x10000000)))

/-- R16: every command word gets exactly one response; a datum other than 0 only from RD; `ignored` only while FAULT = 1
and for no word that is accepted then. -/
def Obligations.OneResponsePerCommand : Prop :=
  ∀ (s : State) (w : Word) (rest : List Word), s.cmds = w :: rest →
    ∃ t r, step s = .next t ∧ t.cmds = rest ∧ t.resp = some r ∧
      (∀ d, r = .ok d → d ≠ 0 → ∃ n, decode w = .ok (.rd n)) ∧
      (r = .ignored → s.fault = true ∧ w ≠ 0x04000000 ∧ w ≠ 0x10000000 ∧
        ∀ n : BitVec 7, 61 ≤ n.toNat → n.toNat ≤ 68 → w ≠ 0x18000000 ||| n.setWidth 32)

/-- The model's choice (log entry 4): with no command issued the engine waits and nothing changes. -/
def Obligations.WaitsWithoutCommand : Prop :=
  ∀ s : State, s.cmds = [] → step s = .next s

/-! ### Faults -/

/-- R204: a command that raises a fault changes nothing but FAULT, ERR and ECMD. -/
def Obligations.FaultEntryWritesOnlyTheLatch : Prop :=
  ∀ (i : Instr) (s t : State) (e : ErrCode), exec i s = .next t → t.resp = some (.fault e) →
    e ≠ .none ∧ t = { s with fault := true, err := e, ecmd := encode i, resp := some (.fault e) }

/-- R104, R206: after a fault ERRCLR leaves the state as it was before the faulting command. -/
def Obligations.ErrclrUndoesAFault : Prop :=
  ∀ (i : Instr) (s t : State) (e : ErrCode), s.fault = false → s.err = .none → s.ecmd = 0 →
    exec i s = .next t → t.resp = some (.fault e) →
    exec .errclr t = .next { s with resp := some (.ok 0) }

/-- R203: the front end and the priority of faults. While FAULT = 1 no fault is raised; else an illegal word raises
E_ILLEGAL; else the command raises the fault of the first test that fires, in the order of the rule, and none otherwise. -/
def Obligations.FirstFaultInOrder : Prop :=
  ∀ (s : State) (w : Word) (rest : List Word), s.cmds = w :: rest → ∃ t, step s = .next t ∧
    (s.fault = true → ∀ e, t.resp ≠ some (.fault e)) ∧
    (s.fault = false → (∀ r ∈ rows, r.accepts w = false) → t.resp = some (.fault .illegal)) ∧
    (s.fault = false → ∀ i, decode w = .ok i →
      (∀ e, firstFault i s = some e → t.resp = some (.fault e)) ∧ (firstFault i s = none → answersOk t))

/-- What every legal command answers as the first after reset: a consequence of the command rules, which the spec itself
marks as derived (R231), with SETSLP 0 from R107 and the datum 0 of RD of 61..68 from the reset table R39. -/
def Obligations.FirstCommandAfterReset : Prop :=
  ∀ i : Instr, i.wf = true → ∃ t, exec i State.reset = .next t ∧ t.resp = some (firstAnswer i)

/-! ### Control commands -/

/-- R39: the reset values the spec gives: ISTATE, FAMILY, FAULT, ERR, ECMD, SLPV, every valid bit; STATUS and the maps. -/
def Obligations.ResetValues : Prop :=
  State.reset.istate = .uninitialized ∧ State.reset.family = .A ∧ State.reset.fault = false ∧
  State.reset.err = .none ∧ State.reset.ecmd = 0 ∧ State.reset.slpV = false ∧
  (∀ i, calValid i State.reset = false) ∧ (∀ k, rawValid k State.reset = false) ∧
  (∀ k, resValid k State.reset = false) ∧ (∀ a, Memory.valid State.reset.buf a = false) ∧
  (∀ r, sysValue r State.reset = 0)

/-- R100, R230: RESET gives the power-on state from any state, up to contents no command can observe; the command port
stays (R28) and the answer is ok(0). -/
def Obligations.ResetRule : Prop :=
  encode .reset = 0x04000000 ∧
  ∀ s : State, ∃ t, exec .reset s = .next t ∧
    SameVisible t { State.reset with cmds := s.cmds, resp := some (.ok 0) }

/-- R101: CALBEGIN. -/
def Obligations.CalbeginRule : Prop :=
  ∀ (fam : BitVec 2) (f : Family) (s : State), fam = f.code →
    encode (.calbegin fam) = 0x08000000 ||| fam.setWidth 32 ∧
    (s.istate = .uninitialized →
      exec (.calbegin fam) s = .next { s with family := f, istate := .fetching, resp := some (.ok 0) }) ∧
    (s.istate ≠ .uninitialized → exec (.calbegin fam) s = .next (faulted .seq (0x08000000 ||| fam.setWidth 32) s))

/-- R102: CALCOMMIT. -/
def Obligations.CalcommitRule : Prop :=
  ∀ s : State,
    (s.istate = .fetching → (∀ i : Fin 26, calValid i s = true ↔ i.val ∈ Formulas.req s.family) →
      exec .calcommit s = .next { s with istate := .ready, resp := some (.ok 0) }) ∧
    (s.istate ≠ .fetching → exec .calcommit s = .next (faulted .seq 0x0C000000 s)) ∧
    (s.istate = .fetching → ¬ (∀ i : Fin 26, calValid i s = true ↔ i.val ∈ Formulas.req s.family) →
      exec .calcommit s = .next (faulted .calPartial 0x0C000000 s))

/-- R104: ERRCLR. -/
def Obligations.ErrclrRule : Prop :=
  encode .errclr = 0x10000000 ∧
  ∀ s : State, exec .errclr s = .next { s with fault := false, err := .none, ecmd := 0, resp := some (.ok 0) }

/-- R105: CYCLE clears the valid bits of raw registers, results and BUF, and nothing else. -/
def Obligations.CycleRule : Prop :=
  ∀ s : State,
    (s.istate = .ready → ∃ t, exec .cycle s = .next t ∧
      (∀ k, rawValid k t = false) ∧ (∀ k, resValid k t = false) ∧ (∀ a, Memory.valid t.buf a = false) ∧
      t = { s with rawV := t.rawV, resV := t.resV, buf := t.buf, resp := some (.ok 0) }) ∧
    (s.istate ≠ .ready → exec .cycle s = .next (faulted .notReady 0x14000000 s))

/-- R106: RD answers the contents of a valid data register or of SLP, E_INVALID for an invalid one, and the view of a
system register always; it changes no state. What the views are is R34 to R36. -/
def Obligations.RdRule : Prop :=
  ∀ (n : BitVec 7) (s : State),
    encode (.rd n) = 0x18000000 ||| n.setWidth 32 ∧
    (∀ i : Fin 26, n.toNat = i.val → calValid i s = true →
      exec (.rd n) s = .next { s with resp := some (.ok s.cal[i]) }) ∧
    (∀ k : Fin 10, n.toNat = 32 + k.val → rawValid k s = true →
      exec (.rd n) s = .next { s with resp := some (.ok s.raw[k]) }) ∧
    (∀ k : Fin 11, n.toNat = 48 + k.val → resValid k s = true →
      exec (.rd n) s = .next { s with resp := some (.ok s.res[k]) }) ∧
    (n.toNat = 60 → s.slpV = true → exec (.rd n) s = .next { s with resp := some (.ok (s.slp.setWidth 32)) }) ∧
    (∀ r, sysRegOf n.toNat = some r → exec (.rd n) s = .next { s with resp := some (.ok (sysValue r s)) }) ∧
    ((Instr.rd n).wf = true → validReg n.toNat s = false →
      exec (.rd n) s = .next (faulted .invalid (0x18000000 ||| n.setWidth 32) s))

/-- R34, R35, R36: RD of 61..68 answers STATUS, ERR, ECMD and the maps, bit by bit, in every state. -/
def Obligations.RdSystemRule : Prop :=
  ∀ (n : BitVec 7) (s : State), 61 ≤ n.toNat → n.toNat ≤ 68 →
    ∃ d : Word, exec (.rd n) s = .next { s with resp := some (.ok d) } ∧
      (n.toNat = 61 → d.toNat = s.istate.code.toNat + 4 * s.family.code.toNat + 16 * s.fault.toNat
        + 32 * (resValid Res.TFINE s).toNat + 64 * s.slpV.toNat) ∧
      (n.toNat = 62 → d.toNat = s.err.code.toNat) ∧
      (n.toNat = 63 → d = s.ecmd) ∧
      (n.toNat = 64 → ∀ k, d.getLsbD k = (decide (k < 26) && s.calV.getLsbD k)) ∧
      (n.toNat = 65 → ∀ k, d.getLsbD k = (decide (k < 10) && s.rawV.getLsbD k)) ∧
      (n.toNat = 66 → ∀ k, d.getLsbD k = (decide (k < 11) && s.resV.getLsbD k)) ∧
      (n.toNat = 67 → ∀ k, d.getLsbD k = (decide (k < 32) && Memory.valid s.buf k)) ∧
      (n.toNat = 68 → ∀ k, d.getLsbD k = (decide (k < 32) && Memory.valid s.buf (32 + k)))

/-- R107: SETSLP. -/
def Obligations.SetslpRule : Prop :=
  ∀ (imm : BitVec 20) (s : State),
    encode (.setslp imm) = 0x1C000000 ||| imm.setWidth 32 ∧
    (imm ≠ 0 → exec (.setslp imm) s = .next { s with slp := imm, slpV := true, resp := some (.ok 0) }) ∧
    (imm = 0 → exec (.setslp imm) s = .next (faulted .domain 0x1C000000 s))

/-! ### Buffer and decode commands -/

/-- R120: LDB stores its byte at its offset, in every state; every other cell reads as before and nothing else changes. -/
def Obligations.LdbRule : Prop :=
  ∀ (off : BitVec 6) (b : BitVec 8) (s : State), ∃ t,
    exec (.ldb off b) s = .next t ∧
    Memory.read t.buf off.toNat = some b ∧
    (∀ a, a ≠ off.toNat → Memory.read t.buf a = Memory.read s.buf a) ∧
    t = { s with buf := t.buf, resp := some (.ok 0) } ∧
    encode (.ldb off b) = 0x20000000 ||| off.setWidth 32 <<< 8 ||| b.setWidth 32

/-- R125: DEC8. -/
def Obligations.Dec8Rule : Prop :=
  ∀ (dst : BitVec 6) (sgn : Bool) (a : BitVec 6),
    encode (.dec8 dst sgn a) =
      0x40000000 ||| dst.setWidth 32 <<< 20 ||| (BitVec.ofBool sgn).setWidth 32 <<< 19 ||| a.setWidth 32 <<< 6 ∧
    checked (.dec8 dst sgn a) ∧
    ∀ (b : Byte) (s : State),
      Memory.read s.buf a.toNat = some b →
      (∀ i : Fin 26, calOpen dst i s → exec (.dec8 dst sgn a) s =
        .next (calWritten i (if sgn then Formulas.sext 8 b.toNat else b.toNat) s)) ∧
      (∀ k : Fin 10, rawOpen dst k s → sgn = false → exec (.dec8 dst sgn a) s = .next (rawWritten k b.toNat s))

/-- R126: DEC16LE, low byte first. -/
def Obligations.Dec16leRule : Prop :=
  ∀ (dst : BitVec 6) (sgn : Bool) (a : BitVec 6),
    encode (.dec16le dst sgn a) =
      0x44000000 ||| dst.setWidth 32 <<< 20 ||| (BitVec.ofBool sgn).setWidth 32 <<< 19 ||| a.setWidth 32 <<< 6 ∧
    checked (.dec16le dst sgn a) ∧
    ∀ (b0 b1 : Byte) (s : State) (v : Int),
      a.toNat + 1 ≤ 63 → Memory.read s.buf a.toNat = some b0 → Memory.read s.buf (a.toNat + 1) = some b1 →
      v = b0.toNat + 256 * b1.toNat →
      (∀ i : Fin 26, calOpen dst i s → exec (.dec16le dst sgn a) s =
        .next (calWritten i (if sgn then Formulas.sext 16 v else v) s)) ∧
      (∀ k : Fin 10, rawOpen dst k s → sgn = false → exec (.dec16le dst sgn a) s = .next (rawWritten k v s))

/-- R127: DEC16BE, most significant byte first. -/
def Obligations.Dec16beRule : Prop :=
  ∀ (dst : BitVec 6) (sgn : Bool) (a : BitVec 6),
    encode (.dec16be dst sgn a) =
      0x48000000 ||| dst.setWidth 32 <<< 20 ||| (BitVec.ofBool sgn).setWidth 32 <<< 19 ||| a.setWidth 32 <<< 6 ∧
    checked (.dec16be dst sgn a) ∧
    ∀ (b0 b1 : Byte) (s : State) (v : Int),
      a.toNat + 1 ≤ 63 → Memory.read s.buf a.toNat = some b0 → Memory.read s.buf (a.toNat + 1) = some b1 →
      v = 256 * b0.toNat + b1.toNat →
      (∀ i : Fin 26, calOpen dst i s → exec (.dec16be dst sgn a) s =
        .next (calWritten i (if sgn then Formulas.sext 16 v else v) s)) ∧
      (∀ k : Fin 10, rawOpen dst k s → sgn = false → exec (.dec16be dst sgn a) s = .next (rawWritten k v s))

/-- R128: DEC12HL, the high byte and the low nibble of the other byte. -/
def Obligations.Dec12hlRule : Prop :=
  ∀ (dst : BitVec 6) (sgn : Bool) (a b : BitVec 6),
    encode (.dec12hl dst sgn a b) =
      0x4C000000 ||| dst.setWidth 32 <<< 20 ||| (BitVec.ofBool sgn).setWidth 32 <<< 19
        ||| a.setWidth 32 <<< 6 ||| b.setWidth 32 ∧
    checked (.dec12hl dst sgn a b) ∧
    ∀ (ba bb : Byte) (s : State) (v : Int),
      Memory.read s.buf a.toNat = some ba → Memory.read s.buf b.toNat = some bb →
      v = 16 * ba.toNat + bb.toNat % 16 →
      (∀ i : Fin 26, calOpen dst i s → exec (.dec12hl dst sgn a b) s =
        .next (calWritten i (if sgn then Formulas.sext 12 v else v) s)) ∧
      (∀ k : Fin 10, rawOpen dst k s → sgn = false → exec (.dec12hl dst sgn a b) s = .next (rawWritten k v s))

/-- R129: DEC12MS, the msb byte and the high nibble of the other byte. -/
def Obligations.Dec12msRule : Prop :=
  ∀ (dst : BitVec 6) (sgn : Bool) (a b : BitVec 6),
    encode (.dec12ms dst sgn a b) =
      0x50000000 ||| dst.setWidth 32 <<< 20 ||| (BitVec.ofBool sgn).setWidth 32 <<< 19
        ||| a.setWidth 32 <<< 6 ||| b.setWidth 32 ∧
    checked (.dec12ms dst sgn a b) ∧
    ∀ (ba bb : Byte) (s : State) (v : Int),
      Memory.read s.buf a.toNat = some ba → Memory.read s.buf b.toNat = some bb →
      v = 16 * ba.toNat + Formulas.sra bb.toNat 4 →
      (∀ i : Fin 26, calOpen dst i s → exec (.dec12ms dst sgn a b) s =
        .next (calWritten i (if sgn then Formulas.sext 12 v else v) s)) ∧
      (∀ k : Fin 10, rawOpen dst k s → sgn = false → exec (.dec12ms dst sgn a b) s = .next (rawWritten k v s))

/-- R130: DEC20, three bytes, most significant first, the third by its high nibble. -/
def Obligations.Dec20Rule : Prop :=
  ∀ (dst a : BitVec 6),
    encode (.dec20 dst a) = 0x54000000 ||| dst.setWidth 32 <<< 20 ||| a.setWidth 32 <<< 6 ∧
    checked (.dec20 dst a) ∧
    ∀ (b0 b1 b2 : Byte) (s : State) (v : Int),
      a.toNat + 2 ≤ 63 → Memory.read s.buf a.toNat = some b0 → Memory.read s.buf (a.toNat + 1) = some b1 →
      Memory.read s.buf (a.toNat + 2) = some b2 →
      v = 4096 * b0.toNat + 16 * b1.toNat + Formulas.sra b2.toNat 4 →
      (∀ i : Fin 26, calOpen dst i s → exec (.dec20 dst a) s = .next (calWritten i v s)) ∧
      (∀ k : Fin 10, rawOpen dst k s → exec (.dec20 dst a) s = .next (rawWritten k v s))

/-- R131: DECBF, bits lsb+n-1 .. lsb of one byte, n = wm1 + 1. -/
def Obligations.DecbfRule : Prop :=
  ∀ (dst : BitVec 6) (sgn : Bool) (lsb wm1 : BitVec 3) (a : BitVec 6),
    encode (.decbf dst sgn lsb wm1 a) =
      0x58000000 ||| dst.setWidth 32 <<< 20 ||| (BitVec.ofBool sgn).setWidth 32 <<< 19
        ||| lsb.setWidth 32 <<< 16 ||| wm1.setWidth 32 <<< 13 ||| a.setWidth 32 <<< 6 ∧
    checked (.decbf dst sgn lsb wm1 a) ∧
    ∀ (b : Byte) (s : State) (n : Nat) (v : Int),
      n = wm1.toNat + 1 → lsb.toNat + n ≤ 8 → Memory.read s.buf a.toNat = some b →
      v = Formulas.sra b.toNat lsb.toNat % 2 ^ n →
      (∀ i : Fin 26, calOpen dst i s → exec (.decbf dst sgn lsb wm1 a) s =
        .next (calWritten i (if sgn then Formulas.sext n v else v) s)) ∧
      (∀ k : Fin 10, rawOpen dst k s → sgn = false → exec (.decbf dst sgn lsb wm1 a) s = .next (rawWritten k v s))

/-- R132: DECGAS, the count and the range nibble of the gas register pair; its faults in the order of R124. -/
def Obligations.DecgasRule : Prop :=
  ∀ (a : BitVec 6) (s : State),
    (∀ b0 b1 : Byte, s.istate = .ready → s.family = .B → a.toNat + 1 ≤ 63 →
      Memory.read s.buf a.toNat = some b0 → Memory.read s.buf (a.toNat + 1) = some b1 →
      rawValid Raw.G s = false → rawValid Raw.GRANGE s = false →
      exec (.decgas a) s = .next (rawWritten Raw.GRANGE (b1.toNat % 16)
        (rawWritten Raw.G (4 * b0.toNat + Formulas.sra b1.toNat 6) s))) ∧
    (¬ (s.istate = .ready ∧ s.family = .B ∧ a.toNat + 1 ≤ 63 ∧
        (∃ b0 b1, Memory.read s.buf a.toNat = some b0 ∧ Memory.read s.buf (a.toNat + 1) = some b1) ∧
        rawValid Raw.G s = false ∧ rawValid Raw.GRANGE s = false) →
      exec (.decgas a) s = .next (faulted
        (if s.istate ≠ .ready then .notReady else if s.family ≠ .B then .family
          else if 63 < a.toNat + 1 then .range
          else if Memory.read s.buf a.toNat = none ∨ Memory.read s.buf (a.toNat + 1) = none then .bufInvalid
          else .rawSet)
        (0x5C000000 ||| a.setWidth 32 <<< 6) s))

/-- R121, R123: a decode with a calibration destination makes its tests in this order, and a test that fires changes
nothing but the latch. -/
def Obligations.CalibrationDecodeChecks : Prop :=
  ∀ (i : Instr) (dst : BitVec 6) (offs : List Nat) (n : Fin 26) (s : State),
    i.wf = true → decodeForm i = some (dst, offs) → dst.toNat = n.val →
    (s.istate = .uninitialized → exec i s = .next (faulted .seq (encode i) s)) ∧
    (s.istate = .ready → exec i s = .next (faulted .calLocked (encode i) s)) ∧
    (s.istate = .fetching → n.val ∉ Formulas.req s.family → exec i s = .next (faulted .family (encode i) s)) ∧
    (s.istate = .fetching → n.val ∈ Formulas.req s.family → (∃ a ∈ offs, 63 < a) →
      exec i s = .next (faulted .range (encode i) s)) ∧
    (s.istate = .fetching → n.val ∈ Formulas.req s.family → (∀ a ∈ offs, a ≤ 63) →
      (∃ a ∈ offs, Memory.read s.buf a = none) → exec i s = .next (faulted .bufInvalid (encode i) s)) ∧
    (s.istate = .fetching → n.val ∈ Formulas.req s.family → (∀ a ∈ offs, a ≤ 63) →
      (∀ a ∈ offs, Memory.read s.buf a ≠ none) → calValid n s = true →
      exec i s = .next (faulted .calLocked (encode i) s))

/-- R121, R124: a decode with a raw destination makes its tests in this order, and a test that fires changes nothing
but the latch. -/
def Obligations.RawDecodeChecks : Prop :=
  ∀ (i : Instr) (dst : BitVec 6) (offs : List Nat) (k : Fin 10) (s : State),
    i.wf = true → decodeForm i = some (dst, offs) → dst.toNat = 32 + k.val →
    (s.istate ≠ .ready → exec i s = .next (faulted .notReady (encode i) s)) ∧
    (s.istate = .ready → 32 + k.val ∉ Formulas.rawset s.family →
      exec i s = .next (faulted .family (encode i) s)) ∧
    (s.istate = .ready → 32 + k.val ∈ Formulas.rawset s.family → (∃ a ∈ offs, 63 < a) →
      exec i s = .next (faulted .range (encode i) s)) ∧
    (s.istate = .ready → 32 + k.val ∈ Formulas.rawset s.family → (∀ a ∈ offs, a ≤ 63) →
      (∃ a ∈ offs, Memory.read s.buf a = none) → exec i s = .next (faulted .bufInvalid (encode i) s)) ∧
    (s.istate = .ready → 32 + k.val ∈ Formulas.rawset s.family → (∀ a ∈ offs, a ≤ 63) →
      (∀ a ∈ offs, Memory.read s.buf a ≠ none) → rawValid k s = true →
      exec i s = .next (faulted .rawSet (encode i) s))

/-- R133: the range of what a decode command leaves in its destination. -/
def Obligations.DecodedValueRanges : Prop :=
  (∀ (i : Instr) (dst : BitVec 6) (offs : List Nat) (s t : State),
    decodeForm i = some (dst, offs) → i.wf = true → exec i s = .next t → answersOk t →
    (∀ n : Fin 26, dst.toNat = n.val →
      (decodeRange i).1 ≤ Formulas.calS t n ∧ Formulas.calS t n ≤ (decodeRange i).2) ∧
    (∀ k : Fin 10, dst.toNat = 32 + k.val →
      (decodeRange i).1 ≤ Formulas.rawS t k ∧ Formulas.rawS t k ≤ (decodeRange i).2)) ∧
  (∀ (a : BitVec 6) (s t : State), exec (.decgas a) s = .next t → answersOk t →
    0 ≤ Formulas.rawS t Raw.G ∧ Formulas.rawS t Raw.G ≤ 1023 ∧
    0 ≤ Formulas.rawS t Raw.GRANGE ∧ Formulas.rawS t Raw.GRANGE ≤ 15)

/-! ### Environmental compensation -/

/-- R151, R152, R153: COMPT computes the family's integer formula and writes TFINE and R_T, nothing else. -/
def Obligations.ComptRule : Prop :=
  ∀ s : State,
    (s.istate = .ready → s.family ≠ .U → rawValid Raw.T s = true → ∀ r : Int × Int,
      r = (if s.family = .A then Formulas.tempA else Formulas.tempB) (Formulas.rawS s Raw.T)
        (Formulas.calS s Cal.T1) (Formulas.calS s Cal.T2) (Formulas.calS s Cal.T3) →
      exec .compt s = .next (resWritten Res.T r.2 (resWritten Res.TFINE r.1 s))) ∧
    (¬ (s.istate = .ready ∧ s.family ≠ .U ∧ rawValid Raw.T s = true) →
      exec .compt s = .next (faulted
        (if s.istate ≠ .ready then .notReady else if s.family = .U then .family else .invalid) 0x80000000 s))

/-- R154, R155, R156: COMPP computes the family's integer formula and writes R_P, nothing else. -/
def Obligations.ComppRule : Prop :=
  ∀ s : State,
    (s.istate = .ready → resValid Res.TFINE s = true → rawValid Raw.P s = true →
      (s.family = .A → exec .compp s = .next (resWritten Res.P
        (Formulas.pressA (Formulas.rawS s Raw.P) (Formulas.resS s Res.TFINE)
          (Formulas.calS s Cal.P1) (Formulas.calS s Cal.P2) (Formulas.calS s Cal.P3) (Formulas.calS s Cal.P4)
          (Formulas.calS s Cal.P5) (Formulas.calS s Cal.P6) (Formulas.calS s Cal.P7) (Formulas.calS s Cal.P8)
          (Formulas.calS s Cal.P9)) s)) ∧
      (s.family = .B → exec .compp s = .next (resWritten Res.P
        (Formulas.pressB (Formulas.rawS s Raw.P) (Formulas.resS s Res.TFINE)
          (Formulas.calS s Cal.P1) (Formulas.calS s Cal.P2) (Formulas.calS s Cal.P3) (Formulas.calS s Cal.P4)
          (Formulas.calS s Cal.P5) (Formulas.calS s Cal.P6) (Formulas.calS s Cal.P7) (Formulas.calS s Cal.P8)
          (Formulas.calS s Cal.P9) (Formulas.calS s Cal.P10)) s))) ∧
    (¬ (s.istate = .ready ∧ s.family ≠ .U ∧ resValid Res.TFINE s = true ∧ rawValid Raw.P s = true) →
      exec .compp s = .next (faulted
        (if s.istate ≠ .ready then .notReady else if s.family = .U then .family
          else if resValid Res.TFINE s = false then .noFine else .invalid) 0x84000000 s))

/-- R157, R158, R159: COMPH computes the family's integer formula and writes R_H, nothing else. -/
def Obligations.ComphRule : Prop :=
  ∀ s : State,
    (s.istate = .ready → resValid Res.TFINE s = true → rawValid Raw.H s = true →
      (s.family = .A → exec .comph s = .next (resWritten Res.H
        (Formulas.humA (Formulas.rawS s Raw.H) (Formulas.resS s Res.TFINE)
          (Formulas.calS s Cal.H1) (Formulas.calS s Cal.H2) (Formulas.calS s Cal.H3) (Formulas.calS s Cal.H4)
          (Formulas.calS s Cal.H5) (Formulas.calS s Cal.H6)) s)) ∧
      (s.family = .B → exec .comph s = .next (resWritten Res.H
        (Formulas.humB (Formulas.rawS s Raw.H) (Formulas.resS s Res.TFINE)
          (Formulas.calS s Cal.H1) (Formulas.calS s Cal.H2) (Formulas.calS s Cal.H3) (Formulas.calS s Cal.H4)
          (Formulas.calS s Cal.H5) (Formulas.calS s Cal.H6) (Formulas.calS s Cal.H7)) s))) ∧
    (¬ (s.istate = .ready ∧ s.family ≠ .U ∧ resValid Res.TFINE s = true ∧ rawValid Raw.H s = true) →
      exec .comph s = .next (faulted
        (if s.istate ≠ .ready then .notReady else if s.family = .U then .family
          else if resValid Res.TFINE s = false then .noFine else .invalid) 0x88000000 s))

/-- R160: ALT writes R_ALT with ALTFN of R_P, the family's divisor and SLP, nothing else. -/
def Obligations.AltRule : Prop :=
  ∀ (s : State) (den : Nat), den = (if s.family = .A then 256 else 1) →
    (s.istate = .ready → s.family ≠ .U → resValid Res.P s = true → s.slpV = true → s.res[Res.P].toNat ≠ 0 →
      exec .alt s = .next (resWritten Res.ALT (altFn s.res[Res.P].toNat den s.slp.toNat).toInt s)) ∧
    (¬ (s.istate = .ready ∧ s.family ≠ .U ∧ resValid Res.P s = true ∧ s.slpV = true ∧ s.res[Res.P].toNat ≠ 0) →
      exec .alt s = .next (faulted
        (if s.istate ≠ .ready then .notReady else if s.family = .U then .family
          else if resValid Res.P s = false ∨ s.slpV = false then .invalid else .domain) 0x8C000000 s))

/-- R161: ALTFN is within 1 cm of the real formula on its whole domain; nothing else of it is known (log entry 6). -/
def Obligations.AltfnWithinTolerance : Prop :=
  ∀ p den slp : Nat, 1 ≤ p → p ≤ 2 ^ 32 - 1 → den = 1 ∨ den = 256 → 1 ≤ slp → slp ≤ 2 ^ 20 - 1 →
    |((altFn p den slp).toInt : ℝ) - 4433000 * (1 - ((p : ℝ) / (den * slp)) ^ (0.1903 : ℝ))| ≤ 1

/-! ### Gas, heater, ultraviolet -/

/-- R180, R181: GASRES. -/
def Obligations.GasresRule : Prop :=
  ∀ s : State,
    (s.istate = .ready → s.family = .B → resValid Res.T s = true → rawValid Raw.G s = true →
      rawValid Raw.GRANGE s = true →
      exec .gasres s = .next (resWritten Res.G
        (Formulas.gasres (Formulas.rawS s Raw.G) (s.raw[Raw.GRANGE].toNat % 16) (Formulas.calS s Cal.RSE)) s)) ∧
    (¬ (s.istate = .ready ∧ s.family = .B ∧ resValid Res.T s = true ∧ rawValid Raw.G s = true ∧
        rawValid Raw.GRANGE s = true) →
      exec .gasres s = .next (faulted
        (if s.istate ≠ .ready then .notReady else if s.family ≠ .B then .family
          else if resValid Res.T s = false then .noFine else .invalid) 0x90000000 s))

/-- R183: HEATRES. -/
def Obligations.HeatresRule : Prop :=
  ∀ (imm : BitVec 20) (s : State),
    (s.istate = .ready → s.family = .B → resValid Res.T s = true →
      exec (.heatres imm) s = .next (resWritten Res.HRES
        (Formulas.heatres imm.toNat (Formulas.resS s Res.T) (Formulas.calS s Cal.G1) (Formulas.calS s Cal.G2)
          (Formulas.calS s Cal.G3) (Formulas.calS s Cal.RHR) (Formulas.calS s Cal.RHV)) s)) ∧
    (¬ (s.istate = .ready ∧ s.family = .B ∧ resValid Res.T s = true) →
      exec (.heatres imm) s = .next (faulted
        (if s.istate ≠ .ready then .notReady else if s.family ≠ .B then .family else .noFine)
        (0x94000000 ||| imm.setWidth 32) s))

/-- R185: HEATDUR; below the sentinel the byte stands for at most 3 ms less than asked. -/
def Obligations.HeatdurRule : Prop :=
  ∀ (imm : BitVec 20) (s : State),
    (s.istate = .ready → s.family = .B →
      exec (.heatdur imm) s = .next (resWritten Res.HDUR (Formulas.heatdur imm.toNat) s)) ∧
    (imm.toNat < 252 → ∀ d f, Formulas.heatdur imm.toNat = d + 64 * f → d < 64 →
      d * 4 ^ f ≤ imm.toNat ∧ imm.toNat ≤ d * 4 ^ f + 3) ∧
    (¬ (s.istate = .ready ∧ s.family = .B) →
      exec (.heatdur imm) s = .next (faulted (if s.istate ≠ .ready then .notReady else .family)
        (0x98000000 ||| imm.setWidth 32) s))

/-- R186, R187: UVI and UVI.D. -/
def Obligations.UviRule : Prop :=
  ∀ (d : Bool) (s : State) (a100 b100 dk : Int),
    dk = (if d then Formulas.rawS s Raw.UVD else 0) →
    a100 = Formulas.uvA (Formulas.rawS s Raw.UVA) (Formulas.rawS s Raw.UVC1) (Formulas.rawS s Raw.UVC2) dk →
    b100 = Formulas.uvB (Formulas.rawS s Raw.UVB) (Formulas.rawS s Raw.UVC1) (Formulas.rawS s Raw.UVC2) dk →
    (s.istate = .ready → s.family = .U → rawValid Raw.UVA s = true → rawValid Raw.UVB s = true →
      rawValid Raw.UVC1 s = true → rawValid Raw.UVC2 s = true → (d = true → rawValid Raw.UVD s = true) →
      exec (.uvi d) s = .next (resWritten Res.UVI (Formulas.uvI a100 b100)
        (resWritten Res.UVB b100 (resWritten Res.UVA a100 s)))) ∧
    (¬ (s.istate = .ready ∧ s.family = .U ∧ rawValid Raw.UVA s = true ∧ rawValid Raw.UVB s = true ∧
        rawValid Raw.UVC1 s = true ∧ rawValid Raw.UVC2 s = true ∧ (d = true → rawValid Raw.UVD s = true)) →
      exec (.uvi d) s = .next (faulted
        (if s.istate ≠ .ready then .notReady else if s.family ≠ .U then .family else .invalid)
        (0x9C000000 ||| (BitVec.ofBool d).setWidth 32) s))

/-! ### Properties of the results -/

/-- R212, R162 (b): where a computed divisor is zero the command completes with the result 0, valid and without a fault:
COMPP of both families (in particular with P1 = 0), GASRES, and the two divisors of HEATRES. -/
def Obligations.ZeroDenominatorGivesZero : Prop :=
  ∀ s t : State, answersOk t →
    (exec .compp s = .next t →
      (s.family = .A → Formulas.pressADen (Formulas.resS s Res.TFINE) (Formulas.calS s Cal.P1)
        (Formulas.calS s Cal.P2) (Formulas.calS s Cal.P3) = 0 → t.res[Res.P] = 0 ∧ resValid Res.P t = true) ∧
      (s.family = .B → Formulas.pressBDen (Formulas.resS s Res.TFINE) (Formulas.calS s Cal.P1)
        (Formulas.calS s Cal.P2) (Formulas.calS s Cal.P3) = 0 → t.res[Res.P] = 0 ∧ resValid Res.P t = true) ∧
      (Formulas.calS s Cal.P1 = 0 → t.res[Res.P] = 0 ∧ resValid Res.P t = true)) ∧
    (exec .gasres s = .next t →
      Formulas.gasDen (Formulas.rawS s Raw.G) (s.raw[Raw.GRANGE].toNat % 16) (Formulas.calS s Cal.RSE) = 0 →
      t.res[Res.G] = 0 ∧ resValid Res.G t = true) ∧
    (∀ imm, exec (.heatres imm) s = .next t →
      (Formulas.w32 (Formulas.calS s Cal.RHR + 4) = 0 ∨
        Formulas.w32 (Formulas.w32 (131 * Formulas.calS s Cal.RHV) + 65536) = 0) →
      t.res[Res.HRES] = 0 ∧ resValid Res.HRES t = true)

/-- R157, R162 (c), R213: humidity is clamped to 0..100 percent for every content of every register. -/
def Obligations.HumidityIsClamped : Prop :=
  ∀ s t : State, exec .comph s = .next t → answersOk t →
    (s.family = .A → t.res[Res.H].toNat ≤ 102400) ∧ (s.family = .B → t.res[Res.H].toNat ≤ 100000)

/-- R187, R188 (a): with raw registers of at most 20 bits no node of UVI wraps, and R_UVI is the exact floored quotient,
0 when the sum is not positive. -/
def Obligations.UvIndexIsExact : Prop :=
  ∀ (d : Bool) (s t : State) (dk a100 b100 x : Int),
    (∀ k : Fin 10, 0 ≤ Formulas.rawS s k ∧ Formulas.rawS s k ≤ 2 ^ 20 - 1) →
    exec (.uvi d) s = .next t → answersOk t →
    dk = (if d then Formulas.rawS s Raw.UVD else 0) →
    a100 = 100 * (Formulas.rawS s Raw.UVA - dk) - 222 * (Formulas.rawS s Raw.UVC1 - dk)
      - 133 * (Formulas.rawS s Raw.UVC2 - dk) →
    b100 = 100 * (Formulas.rawS s Raw.UVB - dk) - 295 * (Formulas.rawS s Raw.UVC1 - dk)
      - 174 * (Formulas.rawS s Raw.UVC2 - dk) →
    x = 1461 * a100 + 2591 * b100 →
    Formulas.resS t Res.UVA = a100 ∧ Formulas.resS t Res.UVB = b100 ∧
    (x ≤ 0 → t.res[Res.UVI].toNat = 0) ∧ (0 < x → (t.res[Res.UVI].toNat : Int) = x / 200000)

/-- R183: every target above 400 gives the result of 400. -/
def Obligations.HeaterTargetIsClamped : Prop :=
  ∀ (imm : BitVec 20) (s t u : State), 400 < imm.toNat →
    exec (.heatres imm) s = .next t → exec (.heatres 400) s = .next u → answersOk t → t = u

/-- R27, R151: repeating a compensation command in a cycle recomputes the same values and changes nothing. -/
def Obligations.RepeatedCompensationChangesNothing : Prop :=
  ∀ (i : Instr) (s t : State), isCompensation i = true → exec i s = .next t → answersOk t → exec i t = .next t

/-- R18, R162 (a), R188 (c): two states that hold the same inputs of a compensation command (R40) get the same results
from it, whatever else they hold. -/
def Obligations.ResultsDependOnlyOnInputs : Prop :=
  ∀ (i : Instr) (s t s' t' : State), isCompensation i = true → sameInputs i s t →
    exec i s = .next s' → exec i t = .next t' → answersOk s' → answersOk t' →
    ∀ k ∈ resOutputs i, s'.res[k] = t'.res[k] ∧ resValid k s' = true ∧ resValid k t' = true

/-! ### Invariants and whole-machine rules -/

/-- The reset state has the invariant. -/
def Obligations.ResetHasInvariant : Prop := Inv State.reset

/-- Every step from every state with the invariant leaves a state with it (R23, R25, R29, R31, R32, R33, R133). -/
def Obligations.StepKeepsInvariant : Prop :=
  ∀ s t : State, Inv s → step s = .next t → Inv t

/-- R24, R38, R230: what a register holds while its valid bit is 0, and what SLP holds while SLPV = 0, cannot be
observed: two states that differ only there give the same response to the next command, and differ only there after it. -/
def Obligations.InvalidContentsAreUnobservable : Prop :=
  ∀ s t : State, CalComplete s → SameVisible s t →
    ∃ s' t', step s = .next s' ∧ step t = .next t' ∧ SameVisible s' t'

/-- R23: from Ready until reset no command changes a calibration register, the family, or Ready itself. -/
def Obligations.CalibrationIsImmutableInReady : Prop :=
  ∀ s t : State, s.istate = .ready → step s = .next t → s.cmds.head? ≠ some 0x04000000 →
    t.cal = s.cal ∧ t.calV = s.calV ∧ t.family = s.family ∧ t.istate = .ready

/-- R30: ISTATE moves only from Uninitialized by CALBEGIN, from FetchingCalibration by CALCOMMIT, and by RESET. -/
def Obligations.IstateMoves : Prop :=
  ∀ (s t : State) (w : Word) (rest : List Word), s.cmds = w :: rest → step s = .next t → t.istate ≠ s.istate →
    (w = 0x04000000 ∧ t.istate = .uninitialized) ∨
    (s.istate = .uninitialized ∧ t.istate = .fetching ∧ ∃ fam, decode w = .ok (.calbegin fam)) ∨
    (s.istate = .fetching ∧ t.istate = .ready ∧ w = 0x0C000000)

/-- R26: a valid raw register keeps its value and its valid bit until CYCLE or RESET. -/
def Obligations.RawSampleIsStableInACycle : Prop :=
  ∀ (s t : State) (k : Fin 10), rawValid k s = true → step s = .next t →
    s.cmds.head? ≠ some 0x14000000 → s.cmds.head? ≠ some 0x04000000 →
    rawValid k t = true ∧ t.raw[k] = s.raw[k]
end

