-- ==== Sys2Proof/Laws/Bits.lean ====
section
/-! SUPPORT. Fields of a command word as numbers (R8, R81), and fields of concatenations, for the encoder and the decoder. -/

namespace Sys2Proof

/-- `w[lo+n-1 : lo]` as a number (R8). -/
theorem toNat_bits (w : Word) (lo n : Nat) : (bits w lo n).toNat = w.toNat / 2 ^ lo % 2 ^ n := by
  simp [bits, BitVec.extractLsb'_toNat, Nat.shiftRight_eq_div_pow]

/-- `a || b` as a number (R8). -/
theorem toNat_append_eq {m n : Nat} (a : BitVec m) (b : BitVec n) :
    (a ++ b).toNat = a.toNat * 2 ^ n + b.toNat := by
  rw [BitVec.toNat_append, ← Nat.shiftLeft_add_eq_or_of_lt b.isLt, Nat.shiftLeft_eq]

/-- `w[lo]` as a number. -/
theorem toNat_bit (w : Word) (lo : Nat) : (bit w lo).toNat = w.toNat / 2 ^ lo % 2 := by
  simp only [bit, BitVec.getLsbD, Nat.testBit, Nat.shiftRight_eq_div_pow]
  rcases Nat.mod_two_eq_zero_or_one (w.toNat / 2 ^ lo) with h | h <;> simp [Nat.one_and_eq_mod_two, h]

theorem toNat_ofBool (b : Bool) : (BitVec.ofBool b).toNat = b.toNat := by cases b <;> rfl

/-- A must-be-zero field is zero exactly when its number is. -/
theorem bits_eq_zero_iff (w : Word) (lo n : Nat) : bits w lo n = 0 ↔ w.toNat / 2 ^ lo % 2 ^ n = 0 := by
  rw [← toNat_bits, ← BitVec.toNat_inj]; simp

/-- A field that lies in the low part of a concatenation. -/
theorem extract_append_low {m n : Nat} (a : BitVec m) (b : BitVec n) (lo k : Nat) (h : lo + k ≤ n) :
    (a ++ b).extractLsb' lo k = b.extractLsb' lo k := BitVec.extractLsb'_append_eq_of_add_le h

/-- A field that lies in the high part of a concatenation. -/
theorem extract_append_high {m n : Nat} (a : BitVec m) (b : BitVec n) (lo k : Nat) (h : n ≤ lo) :
    (a ++ b).extractLsb' lo k = a.extractLsb' (lo - n) k := BitVec.extractLsb'_append_eq_of_le h

/-- A decoded command has passed its must-be-zero test (R79). -/
theorem whenZero_ok {w : Word} {lo n : Nat} {r : Except Illegal Instr} {i : Instr} :
    whenZero w lo n r = .ok i ↔ bits w lo n = 0 ∧ r = .ok i := by
  unfold whenZero
  split
  · next h => exact ⟨fun hr => ⟨h, hr⟩, fun hr => hr.2⟩
  · next h => exact ⟨fun hr => (by cases hr), fun hr => absurd hr.1 h⟩

/-- A decoded format-D command has passed R80's `dest` condition. -/
theorem whenDest_ok {w : Word} {r : Except Illegal Instr} {i : Instr} :
    whenDest w r = .ok i ↔ destLegal (bits w 20 6) (bit w 19) = true ∧ r = .ok i := by
  unfold whenDest destLegal
  dsimp only
  split
  · next h => simp [show (bits w 20 6).toNat ≤ 25 by omega]
  · split
    · next h =>
      cases hb : bit w 19
      · simp [h.1, show (bits w 20 6).toNat ≤ 41 by omega]
      · simp; omega
    · next h1 h => simp only [reduceCtorEq, false_iff, not_and]; intro hd; simp at hd; omega

end Sys2Proof
end

