-- ==== Sys2Proof/Laws/Memory.lean ====
section
/-! SUPPORT. BUF: a write gives its own cell the value and leaves every other cell alone (R14), and keeps the canonical
form (R50). -/

namespace Sys2Proof.Machine

theorem Memory.read_nil (a : Nat) : Memory.read [] a = none := rfl

@[simp] theorem Memory.valid_nil (a : Nat) : Memory.valid [] a = false := rfl

theorem Memory.valid_iff (m : Memory) (a : Nat) : Memory.valid m a = true ↔ ∃ b, Memory.read m a = some b := by
  rw [Memory.valid, Option.isSome_iff_exists]

theorem Memory.valid_of_read {m : Memory} {a : Nat} {b : Byte} (h : Memory.read m a = some b) :
    Memory.valid m a = true := (Memory.valid_iff m a).2 ⟨b, h⟩

/-- Where the source check has passed, the cell a decode command reads is the one BUF holds. -/
theorem Memory.cell_of_read {m : Memory} {a : Nat} {b : Byte} (h : Memory.read m a = some b) :
    Memory.cell m a = b := by simp [Memory.cell, h]

theorem Memory.read_write_same (m : Memory) (a : Nat) (b : Byte) : Memory.read (Memory.write m a b) a = some b := by
  induction m with
  | nil => simp [Memory.write, Memory.read]
  | cons c m ih =>
    simp only [Memory.write]
    split
    · simp [Memory.read]
    · split
      · simp [Memory.read]
      · rw [Memory.read, if_neg (by omega), ih]

theorem Memory.read_write_other (m : Memory) (a a' : Nat) (b : Byte) (h : a' ≠ a) :
    Memory.read (Memory.write m a b) a' = Memory.read m a' := by
  induction m with
  | nil => simp [Memory.write, Memory.read, h.symm]
  | cons c m ih =>
    simp only [Memory.write]
    split
    · rw [Memory.read, if_neg (by simpa using h.symm)]
    · split
      · next h1 => simp [Memory.read, ← h1, h.symm]
      · simp only [Memory.read]
        split
        · rfl
        · exact ih

/-- What a write lists: the written cell, and cells that were listed at other offsets. -/
theorem Memory.mem_write {m : Memory} {a : Nat} {b : Byte} {c : Host.Cell} (h : c ∈ Memory.write m a b) :
    c = (a, b) ∨ c ∈ m := by
  induction m with
  | nil => simpa [Memory.write] using h
  | cons d m ih =>
    simp only [Memory.write] at h
    split at h
    · simpa [or_assoc] using h
    · split at h
      · rcases List.mem_cons.1 h with h | h
        · exact .inl h
        · exact .inr (List.mem_cons_of_mem _ h)
      · rcases List.mem_cons.1 h with h | h
        · exact .inr (h ▸ List.mem_cons_self)
        · exact (ih h).imp_right (List.mem_cons_of_mem _)

theorem Memory.wf_nil : Memory.wf [] := ⟨List.Pairwise.nil, by simp⟩

/-- Every store keeps BUF's canonical form. -/
theorem Memory.wf_write {m : Memory} {a : Nat} {b : Byte} (hm : Memory.wf m) (ha : a < Config.bufSize) :
    Memory.wf (Memory.write m a b) := by
  refine ⟨?_, fun c hc => (Memory.mem_write hc).elim (fun h => h ▸ ha) (hm.2 c)⟩
  have hp := hm.1
  clear hm
  induction m with
  | nil => simp [Memory.write]
  | cons d m ih =>
    obtain ⟨hd, hp'⟩ := List.pairwise_cons.1 hp
    simp only [Memory.write]
    split
    · next h =>
      refine List.pairwise_cons.2 ⟨fun c hc => ?_, hp⟩
      rcases List.mem_cons.1 hc with rfl | hc
      · exact h
      · exact Nat.lt_trans h (hd c hc)
    · split
      · next h => exact List.pairwise_cons.2 ⟨fun c hc => by simpa [h] using hd c hc, hp'⟩
      · next h1 h2 =>
        refine List.pairwise_cons.2 ⟨fun c hc => ?_, ih hp'⟩
        rcases Memory.mem_write hc with rfl | hc
        · exact by dsimp only; omega
        · exact hd c hc

/-- The maps of R36: bit k of `bufMap m base n` is `BUFV[base + k]` for k < n and 0 above. -/
theorem getLsbD_bufMap (m : Memory) (base n k : Nat) (hn : n ≤ 32) :
    (bufMap m base n).getLsbD k = (decide (k < n) && Memory.valid m (base + k)) := by
  induction n with
  | zero => simp [bufMap]
  | succ n ih =>
    have ih := ih (by omega)
    simp only [bufMap]
    rcases Nat.lt_trichotomy k n with h | h | h
    · split <;> simp [setBit, ih, BitVec.getLsbD_twoPow, h, Nat.lt_succ_of_lt h, show ¬ n = k by omega]
    · subst h
      split
      · next hv => simp [setBit, hv, show k < 32 by omega]
      · next hv => simp [ih, hv]
    · split <;> simp [setBit, ih, BitVec.getLsbD_twoPow, show ¬ k < n by omega, show ¬ k < n + 1 by omega,
        show ¬ n = k by omega]

end Sys2Proof.Machine
end

