-- ==== Sys2Proof/Laws/State.lean ====
section
/-! SUPPORT. One lemma per field per state update, so that no proof unfolds a record update. -/

namespace Sys2Proof.Machine

/-! ### State.reset -/

@[simp] theorem reset_buf : State.reset.buf = [] := rfl
@[simp] theorem reset_cal : State.reset.cal = Vector.replicate 26 0 := rfl
@[simp] theorem reset_calV : State.reset.calV = 0 := rfl
@[simp] theorem reset_raw : State.reset.raw = Vector.replicate 10 0 := rfl
@[simp] theorem reset_rawV : State.reset.rawV = 0 := rfl
@[simp] theorem reset_res : State.reset.res = Vector.replicate 11 0 := rfl
@[simp] theorem reset_resV : State.reset.resV = 0 := rfl
@[simp] theorem reset_slp : State.reset.slp = 0 := rfl
@[simp] theorem reset_slpV : State.reset.slpV = false := rfl
@[simp] theorem reset_istate : State.reset.istate = .uninitialized := rfl
@[simp] theorem reset_family : State.reset.family = .A := rfl
@[simp] theorem reset_fault : State.reset.fault = false := rfl
@[simp] theorem reset_err : State.reset.err = .none := rfl
@[simp] theorem reset_ecmd : State.reset.ecmd = 0 := rfl
@[simp] theorem reset_cmds : State.reset.cmds = [] := rfl
@[simp] theorem reset_resp : State.reset.resp = none := rfl

/-! ### writeCal -/

@[simp] theorem writeCal_buf (i : Fin 26) (v : Word) (s : State) :
    (writeCal i v s).buf = s.buf := rfl
@[simp] theorem writeCal_cal (i : Fin 26) (v : Word) (s : State) :
    (writeCal i v s).cal = s.cal.set i v := rfl
@[simp] theorem writeCal_calV (i : Fin 26) (v : Word) (s : State) :
    (writeCal i v s).calV = setBit s.calV i := rfl
@[simp] theorem writeCal_raw (i : Fin 26) (v : Word) (s : State) :
    (writeCal i v s).raw = s.raw := rfl
@[simp] theorem writeCal_rawV (i : Fin 26) (v : Word) (s : State) :
    (writeCal i v s).rawV = s.rawV := rfl
@[simp] theorem writeCal_res (i : Fin 26) (v : Word) (s : State) :
    (writeCal i v s).res = s.res := rfl
@[simp] theorem writeCal_resV (i : Fin 26) (v : Word) (s : State) :
    (writeCal i v s).resV = s.resV := rfl
@[simp] theorem writeCal_slp (i : Fin 26) (v : Word) (s : State) :
    (writeCal i v s).slp = s.slp := rfl
@[simp] theorem writeCal_slpV (i : Fin 26) (v : Word) (s : State) :
    (writeCal i v s).slpV = s.slpV := rfl
@[simp] theorem writeCal_istate (i : Fin 26) (v : Word) (s : State) :
    (writeCal i v s).istate = s.istate := rfl
@[simp] theorem writeCal_family (i : Fin 26) (v : Word) (s : State) :
    (writeCal i v s).family = s.family := rfl
@[simp] theorem writeCal_fault (i : Fin 26) (v : Word) (s : State) :
    (writeCal i v s).fault = s.fault := rfl
@[simp] theorem writeCal_err (i : Fin 26) (v : Word) (s : State) :
    (writeCal i v s).err = s.err := rfl
@[simp] theorem writeCal_ecmd (i : Fin 26) (v : Word) (s : State) :
    (writeCal i v s).ecmd = s.ecmd := rfl
@[simp] theorem writeCal_cmds (i : Fin 26) (v : Word) (s : State) :
    (writeCal i v s).cmds = s.cmds := rfl
@[simp] theorem writeCal_resp (i : Fin 26) (v : Word) (s : State) :
    (writeCal i v s).resp = s.resp := rfl

/-! ### writeRaw -/

@[simp] theorem writeRaw_buf (k : Fin 10) (v : Word) (s : State) :
    (writeRaw k v s).buf = s.buf := rfl
@[simp] theorem writeRaw_cal (k : Fin 10) (v : Word) (s : State) :
    (writeRaw k v s).cal = s.cal := rfl
@[simp] theorem writeRaw_calV (k : Fin 10) (v : Word) (s : State) :
    (writeRaw k v s).calV = s.calV := rfl
@[simp] theorem writeRaw_raw (k : Fin 10) (v : Word) (s : State) :
    (writeRaw k v s).raw = s.raw.set k v := rfl
@[simp] theorem writeRaw_rawV (k : Fin 10) (v : Word) (s : State) :
    (writeRaw k v s).rawV = setBit s.rawV k := rfl
@[simp] theorem writeRaw_res (k : Fin 10) (v : Word) (s : State) :
    (writeRaw k v s).res = s.res := rfl
@[simp] theorem writeRaw_resV (k : Fin 10) (v : Word) (s : State) :
    (writeRaw k v s).resV = s.resV := rfl
@[simp] theorem writeRaw_slp (k : Fin 10) (v : Word) (s : State) :
    (writeRaw k v s).slp = s.slp := rfl
@[simp] theorem writeRaw_slpV (k : Fin 10) (v : Word) (s : State) :
    (writeRaw k v s).slpV = s.slpV := rfl
@[simp] theorem writeRaw_istate (k : Fin 10) (v : Word) (s : State) :
    (writeRaw k v s).istate = s.istate := rfl
@[simp] theorem writeRaw_family (k : Fin 10) (v : Word) (s : State) :
    (writeRaw k v s).family = s.family := rfl
@[simp] theorem writeRaw_fault (k : Fin 10) (v : Word) (s : State) :
    (writeRaw k v s).fault = s.fault := rfl
@[simp] theorem writeRaw_err (k : Fin 10) (v : Word) (s : State) :
    (writeRaw k v s).err = s.err := rfl
@[simp] theorem writeRaw_ecmd (k : Fin 10) (v : Word) (s : State) :
    (writeRaw k v s).ecmd = s.ecmd := rfl
@[simp] theorem writeRaw_cmds (k : Fin 10) (v : Word) (s : State) :
    (writeRaw k v s).cmds = s.cmds := rfl
@[simp] theorem writeRaw_resp (k : Fin 10) (v : Word) (s : State) :
    (writeRaw k v s).resp = s.resp := rfl

/-! ### writeRes -/

@[simp] theorem writeRes_buf (k : Fin 11) (v : Word) (s : State) :
    (writeRes k v s).buf = s.buf := rfl
@[simp] theorem writeRes_cal (k : Fin 11) (v : Word) (s : State) :
    (writeRes k v s).cal = s.cal := rfl
@[simp] theorem writeRes_calV (k : Fin 11) (v : Word) (s : State) :
    (writeRes k v s).calV = s.calV := rfl
@[simp] theorem writeRes_raw (k : Fin 11) (v : Word) (s : State) :
    (writeRes k v s).raw = s.raw := rfl
@[simp] theorem writeRes_rawV (k : Fin 11) (v : Word) (s : State) :
    (writeRes k v s).rawV = s.rawV := rfl
@[simp] theorem writeRes_res (k : Fin 11) (v : Word) (s : State) :
    (writeRes k v s).res = s.res.set k v := rfl
@[simp] theorem writeRes_resV (k : Fin 11) (v : Word) (s : State) :
    (writeRes k v s).resV = setBit s.resV k := rfl
@[simp] theorem writeRes_slp (k : Fin 11) (v : Word) (s : State) :
    (writeRes k v s).slp = s.slp := rfl
@[simp] theorem writeRes_slpV (k : Fin 11) (v : Word) (s : State) :
    (writeRes k v s).slpV = s.slpV := rfl
@[simp] theorem writeRes_istate (k : Fin 11) (v : Word) (s : State) :
    (writeRes k v s).istate = s.istate := rfl
@[simp] theorem writeRes_family (k : Fin 11) (v : Word) (s : State) :
    (writeRes k v s).family = s.family := rfl
@[simp] theorem writeRes_fault (k : Fin 11) (v : Word) (s : State) :
    (writeRes k v s).fault = s.fault := rfl
@[simp] theorem writeRes_err (k : Fin 11) (v : Word) (s : State) :
    (writeRes k v s).err = s.err := rfl
@[simp] theorem writeRes_ecmd (k : Fin 11) (v : Word) (s : State) :
    (writeRes k v s).ecmd = s.ecmd := rfl
@[simp] theorem writeRes_cmds (k : Fin 11) (v : Word) (s : State) :
    (writeRes k v s).cmds = s.cmds := rfl
@[simp] theorem writeRes_resp (k : Fin 11) (v : Word) (s : State) :
    (writeRes k v s).resp = s.resp := rfl

/-! ### respond -/

@[simp] theorem respond_buf (d : Word) (s : State) :
    (respond d s).buf = s.buf := rfl
@[simp] theorem respond_cal (d : Word) (s : State) :
    (respond d s).cal = s.cal := rfl
@[simp] theorem respond_calV (d : Word) (s : State) :
    (respond d s).calV = s.calV := rfl
@[simp] theorem respond_raw (d : Word) (s : State) :
    (respond d s).raw = s.raw := rfl
@[simp] theorem respond_rawV (d : Word) (s : State) :
    (respond d s).rawV = s.rawV := rfl
@[simp] theorem respond_res (d : Word) (s : State) :
    (respond d s).res = s.res := rfl
@[simp] theorem respond_resV (d : Word) (s : State) :
    (respond d s).resV = s.resV := rfl
@[simp] theorem respond_slp (d : Word) (s : State) :
    (respond d s).slp = s.slp := rfl
@[simp] theorem respond_slpV (d : Word) (s : State) :
    (respond d s).slpV = s.slpV := rfl
@[simp] theorem respond_istate (d : Word) (s : State) :
    (respond d s).istate = s.istate := rfl
@[simp] theorem respond_family (d : Word) (s : State) :
    (respond d s).family = s.family := rfl
@[simp] theorem respond_fault (d : Word) (s : State) :
    (respond d s).fault = s.fault := rfl
@[simp] theorem respond_err (d : Word) (s : State) :
    (respond d s).err = s.err := rfl
@[simp] theorem respond_ecmd (d : Word) (s : State) :
    (respond d s).ecmd = s.ecmd := rfl
@[simp] theorem respond_cmds (d : Word) (s : State) :
    (respond d s).cmds = s.cmds := rfl
@[simp] theorem respond_resp (d : Word) (s : State) :
    (respond d s).resp = some (.ok d) := rfl

/-! ### raise -/

@[simp] theorem raise_buf (e : ErrCode) (w : Word) (s : State) :
    (raise e w s).buf = s.buf := rfl
@[simp] theorem raise_cal (e : ErrCode) (w : Word) (s : State) :
    (raise e w s).cal = s.cal := rfl
@[simp] theorem raise_calV (e : ErrCode) (w : Word) (s : State) :
    (raise e w s).calV = s.calV := rfl
@[simp] theorem raise_raw (e : ErrCode) (w : Word) (s : State) :
    (raise e w s).raw = s.raw := rfl
@[simp] theorem raise_rawV (e : ErrCode) (w : Word) (s : State) :
    (raise e w s).rawV = s.rawV := rfl
@[simp] theorem raise_res (e : ErrCode) (w : Word) (s : State) :
    (raise e w s).res = s.res := rfl
@[simp] theorem raise_resV (e : ErrCode) (w : Word) (s : State) :
    (raise e w s).resV = s.resV := rfl
@[simp] theorem raise_slp (e : ErrCode) (w : Word) (s : State) :
    (raise e w s).slp = s.slp := rfl
@[simp] theorem raise_slpV (e : ErrCode) (w : Word) (s : State) :
    (raise e w s).slpV = s.slpV := rfl
@[simp] theorem raise_istate (e : ErrCode) (w : Word) (s : State) :
    (raise e w s).istate = s.istate := rfl
@[simp] theorem raise_family (e : ErrCode) (w : Word) (s : State) :
    (raise e w s).family = s.family := rfl
@[simp] theorem raise_fault (e : ErrCode) (w : Word) (s : State) :
    (raise e w s).fault = true := rfl
@[simp] theorem raise_err (e : ErrCode) (w : Word) (s : State) :
    (raise e w s).err = e := rfl
@[simp] theorem raise_ecmd (e : ErrCode) (w : Word) (s : State) :
    (raise e w s).ecmd = w := rfl
@[simp] theorem raise_cmds (e : ErrCode) (w : Word) (s : State) :
    (raise e w s).cmds = s.cmds := rfl
@[simp] theorem raise_resp (e : ErrCode) (w : Word) (s : State) :
    (raise e w s).resp = some (.fault e) := rfl

/-! ### clearFault -/

@[simp] theorem clearFault_buf (s : State) :
    (clearFault s).buf = s.buf := rfl
@[simp] theorem clearFault_cal (s : State) :
    (clearFault s).cal = s.cal := rfl
@[simp] theorem clearFault_calV (s : State) :
    (clearFault s).calV = s.calV := rfl
@[simp] theorem clearFault_raw (s : State) :
    (clearFault s).raw = s.raw := rfl
@[simp] theorem clearFault_rawV (s : State) :
    (clearFault s).rawV = s.rawV := rfl
@[simp] theorem clearFault_res (s : State) :
    (clearFault s).res = s.res := rfl
@[simp] theorem clearFault_resV (s : State) :
    (clearFault s).resV = s.resV := rfl
@[simp] theorem clearFault_slp (s : State) :
    (clearFault s).slp = s.slp := rfl
@[simp] theorem clearFault_slpV (s : State) :
    (clearFault s).slpV = s.slpV := rfl
@[simp] theorem clearFault_istate (s : State) :
    (clearFault s).istate = s.istate := rfl
@[simp] theorem clearFault_family (s : State) :
    (clearFault s).family = s.family := rfl
@[simp] theorem clearFault_fault (s : State) :
    (clearFault s).fault = false := rfl
@[simp] theorem clearFault_err (s : State) :
    (clearFault s).err = .none := rfl
@[simp] theorem clearFault_ecmd (s : State) :
    (clearFault s).ecmd = 0 := rfl
@[simp] theorem clearFault_cmds (s : State) :
    (clearFault s).cmds = s.cmds := rfl
@[simp] theorem clearFault_resp (s : State) :
    (clearFault s).resp = s.resp := rfl

/-! ### ignore -/

@[simp] theorem ignore_buf (s : State) :
    (ignore s).buf = s.buf := rfl
@[simp] theorem ignore_cal (s : State) :
    (ignore s).cal = s.cal := rfl
@[simp] theorem ignore_calV (s : State) :
    (ignore s).calV = s.calV := rfl
@[simp] theorem ignore_raw (s : State) :
    (ignore s).raw = s.raw := rfl
@[simp] theorem ignore_rawV (s : State) :
    (ignore s).rawV = s.rawV := rfl
@[simp] theorem ignore_res (s : State) :
    (ignore s).res = s.res := rfl
@[simp] theorem ignore_resV (s : State) :
    (ignore s).resV = s.resV := rfl
@[simp] theorem ignore_slp (s : State) :
    (ignore s).slp = s.slp := rfl
@[simp] theorem ignore_slpV (s : State) :
    (ignore s).slpV = s.slpV := rfl
@[simp] theorem ignore_istate (s : State) :
    (ignore s).istate = s.istate := rfl
@[simp] theorem ignore_family (s : State) :
    (ignore s).family = s.family := rfl
@[simp] theorem ignore_fault (s : State) :
    (ignore s).fault = s.fault := rfl
@[simp] theorem ignore_err (s : State) :
    (ignore s).err = s.err := rfl
@[simp] theorem ignore_ecmd (s : State) :
    (ignore s).ecmd = s.ecmd := rfl
@[simp] theorem ignore_cmds (s : State) :
    (ignore s).cmds = s.cmds := rfl
@[simp] theorem ignore_resp (s : State) :
    (ignore s).resp = some .ignored := rfl

/-! ### newCycle -/

@[simp] theorem newCycle_buf (s : State) :
    (newCycle s).buf = [] := rfl
@[simp] theorem newCycle_cal (s : State) :
    (newCycle s).cal = s.cal := rfl
@[simp] theorem newCycle_calV (s : State) :
    (newCycle s).calV = s.calV := rfl
@[simp] theorem newCycle_raw (s : State) :
    (newCycle s).raw = s.raw := rfl
@[simp] theorem newCycle_rawV (s : State) :
    (newCycle s).rawV = 0 := rfl
@[simp] theorem newCycle_res (s : State) :
    (newCycle s).res = s.res := rfl
@[simp] theorem newCycle_resV (s : State) :
    (newCycle s).resV = 0 := rfl
@[simp] theorem newCycle_slp (s : State) :
    (newCycle s).slp = s.slp := rfl
@[simp] theorem newCycle_slpV (s : State) :
    (newCycle s).slpV = s.slpV := rfl
@[simp] theorem newCycle_istate (s : State) :
    (newCycle s).istate = s.istate := rfl
@[simp] theorem newCycle_family (s : State) :
    (newCycle s).family = s.family := rfl
@[simp] theorem newCycle_fault (s : State) :
    (newCycle s).fault = s.fault := rfl
@[simp] theorem newCycle_err (s : State) :
    (newCycle s).err = s.err := rfl
@[simp] theorem newCycle_ecmd (s : State) :
    (newCycle s).ecmd = s.ecmd := rfl
@[simp] theorem newCycle_cmds (s : State) :
    (newCycle s).cmds = s.cmds := rfl
@[simp] theorem newCycle_resp (s : State) :
    (newCycle s).resp = s.resp := rfl

/-! ### resetState -/

@[simp] theorem resetState_buf (s : State) :
    (resetState s).buf = State.reset.buf := rfl
@[simp] theorem resetState_cal (s : State) :
    (resetState s).cal = State.reset.cal := rfl
@[simp] theorem resetState_calV (s : State) :
    (resetState s).calV = State.reset.calV := rfl
@[simp] theorem resetState_raw (s : State) :
    (resetState s).raw = State.reset.raw := rfl
@[simp] theorem resetState_rawV (s : State) :
    (resetState s).rawV = State.reset.rawV := rfl
@[simp] theorem resetState_res (s : State) :
    (resetState s).res = State.reset.res := rfl
@[simp] theorem resetState_resV (s : State) :
    (resetState s).resV = State.reset.resV := rfl
@[simp] theorem resetState_slp (s : State) :
    (resetState s).slp = State.reset.slp := rfl
@[simp] theorem resetState_slpV (s : State) :
    (resetState s).slpV = State.reset.slpV := rfl
@[simp] theorem resetState_istate (s : State) :
    (resetState s).istate = State.reset.istate := rfl
@[simp] theorem resetState_family (s : State) :
    (resetState s).family = State.reset.family := rfl
@[simp] theorem resetState_fault (s : State) :
    (resetState s).fault = State.reset.fault := rfl
@[simp] theorem resetState_err (s : State) :
    (resetState s).err = State.reset.err := rfl
@[simp] theorem resetState_ecmd (s : State) :
    (resetState s).ecmd = State.reset.ecmd := rfl
@[simp] theorem resetState_cmds (s : State) :
    (resetState s).cmds = s.cmds := rfl
@[simp] theorem resetState_resp (s : State) :
    (resetState s).resp = s.resp := rfl

/-! ### withFetchWord -/

@[simp] theorem withFetchWord_buf (n w : Nat) (s : State) :
    (s.withFetchWord n w).buf = s.buf := rfl
@[simp] theorem withFetchWord_cal (n w : Nat) (s : State) :
    (s.withFetchWord n w).cal = s.cal := rfl
@[simp] theorem withFetchWord_calV (n w : Nat) (s : State) :
    (s.withFetchWord n w).calV = s.calV := rfl
@[simp] theorem withFetchWord_raw (n w : Nat) (s : State) :
    (s.withFetchWord n w).raw = s.raw := rfl
@[simp] theorem withFetchWord_rawV (n w : Nat) (s : State) :
    (s.withFetchWord n w).rawV = s.rawV := rfl
@[simp] theorem withFetchWord_res (n w : Nat) (s : State) :
    (s.withFetchWord n w).res = s.res := rfl
@[simp] theorem withFetchWord_resV (n w : Nat) (s : State) :
    (s.withFetchWord n w).resV = s.resV := rfl
@[simp] theorem withFetchWord_slp (n w : Nat) (s : State) :
    (s.withFetchWord n w).slp = s.slp := rfl
@[simp] theorem withFetchWord_slpV (n w : Nat) (s : State) :
    (s.withFetchWord n w).slpV = s.slpV := rfl
@[simp] theorem withFetchWord_istate (n w : Nat) (s : State) :
    (s.withFetchWord n w).istate = s.istate := rfl
@[simp] theorem withFetchWord_family (n w : Nat) (s : State) :
    (s.withFetchWord n w).family = s.family := rfl
@[simp] theorem withFetchWord_fault (n w : Nat) (s : State) :
    (s.withFetchWord n w).fault = s.fault := rfl
@[simp] theorem withFetchWord_err (n w : Nat) (s : State) :
    (s.withFetchWord n w).err = s.err := rfl
@[simp] theorem withFetchWord_ecmd (n w : Nat) (s : State) :
    (s.withFetchWord n w).ecmd = s.ecmd := rfl
@[simp] theorem withFetchWord_cmds (n w : Nat) (s : State) :
    (s.withFetchWord n w).cmds = BitVec.ofNat 32 (w % 2 ^ n) :: s.cmds := rfl
@[simp] theorem withFetchWord_resp (n w : Nat) (s : State) :
    (s.withFetchWord n w).resp = s.resp := rfl

end Sys2Proof.Machine
end

