-- ==== Sys2Proof/Laws/Ops.lean ====
section
/-! SUPPORT. One lemma per shared operation: everything it can do. Proofs about commands cite these and do not unfold the
operations. -/

namespace Sys2Proof.Machine

open Sys2Proof.Safety

/-! ### Tests and the end of a command -/

/-- A test lets a command complete exactly when it holds and the rest completes. -/
theorem require_ok {c : Prop} [Decidable c] {e : ErrCode} {k : Except ErrCode State} {t : State} :
    require c e k = .ok t ↔ c ∧ k = .ok t := by
  unfold require; split <;> simp [*]

/-- A fault comes from the test itself or from what follows it. -/
theorem require_error {c : Prop} [Decidable c] {e e' : ErrCode} {k : Except ErrCode State} :
    require c e k = .error e' ↔ (¬ c ∧ e = e') ∨ (c ∧ k = .error e') := by
  unfold require; split <;> simp [*]

@[simp] theorem require_pos {c : Prop} [Decidable c] {e : ErrCode} {k : Except ErrCode State} (h : c) :
    require c e k = k := if_pos h

@[simp] theorem require_neg {c : Prop} [Decidable c] {e : ErrCode} {k : Except ErrCode State} (h : ¬ c) :
    require c e k = .error e := if_neg h

@[simp] theorem complete_ok (w : Word) (s t : State) : complete w s (.ok t) = .next t := rfl

@[simp] theorem complete_error (w : Word) (s : State) (e : ErrCode) :
    complete w s (.error e) = .next (raise e w s) := rfl

/-- A command always answers a next state: its own, or the fault entry. -/
theorem complete_next {w : Word} {s t : State} {r : Except ErrCode State} :
    complete w s r = .next t ↔ r = .ok t ∨ ∃ e, r = .error e ∧ t = raise e w s := by
  cases r <;> simp [eq_comm]

theorem faulted_eq_raise (e : ErrCode) (w : Word) (s : State) : faulted e w s = raise e w s := rfl

/-! ### Valid bits -/

@[simp] theorem getLsbD_setBit {n : Nat} (v : BitVec n) (i k : Nat) :
    (setBit v i).getLsbD k = (v.getLsbD k || (decide (k < n) && decide (i = k))) := by
  rw [setBit, BitVec.getLsbD_or, BitVec.getLsbD_twoPow]
  by_cases h : i = k <;> simp [h]

theorem inRequired_iff (i : Fin 26) (s : State) : inRequired i s = true ↔ i.val ∈ Formulas.req s.family := by
  unfold inRequired
  cases s.family <;> revert i <;> decide

theorem inRawSet_iff (k : Fin 10) (s : State) : inRawSet k s = true ↔ 32 + k.val ∈ Formulas.rawset s.family := by
  unfold inRawSet
  cases s.family <;> revert k <;> decide

/-- The populated set is REQ[FAMILY] exactly when the two maps are equal (R102). -/
theorem calV_eq_required_iff (s : State) :
    s.calV = required s.family ↔ ∀ i : Fin 26, calValid i s = true ↔ i.val ∈ Formulas.req s.family := by
  constructor
  · intro h i
    rw [← inRequired_iff, inRequired, ← h, calValid]
  · intro h
    refine BitVec.eq_of_getLsbD_eq fun i hi => ?_
    have := h ⟨i, hi⟩
    rw [← inRequired_iff] at this
    exact Bool.eq_iff_iff.2 this

/-! ### Destinations and selectors -/

/-- The destination of a legal decode is the calibration or the raw register that `rd` names (R80). -/
theorem destOf_eq_some {dst : BitVec 6} {s : Bool} {d : Dest} :
    destOf dst s = some d ↔
      (∃ i : Fin 26, d = .cal i ∧ dst.toNat = i.val) ∨
      (s = false ∧ ∃ k : Fin 10, d = .raw k ∧ dst.toNat = 32 + k.val) := by
  unfold destOf
  split
  · next h =>
    constructor
    · intro hd; exact .inl ⟨⟨dst.toNat, h⟩, by simpa [eq_comm] using hd, rfl⟩
    · rintro (⟨i, rfl, hi⟩ | ⟨-, k, rfl, hk⟩)
      · simp [hi]
      · omega
  · split
    · next h1 h =>
      cases s
      · constructor
        · intro hd
          exact .inr ⟨rfl, ⟨dst.toNat - 32, by omega⟩, by simpa [eq_comm] using hd, by simp; omega⟩
        · rintro (⟨i, rfl, hi⟩ | ⟨-, k, rfl, hk⟩)
          · exact absurd i.isLt (by omega)
          · simp [hk]
      · simp only [if_true, Bool.true_eq_false, false_and, or_false, reduceCtorEq, false_iff]
        rintro ⟨i, -, hi⟩
        exact absurd i.isLt (by omega)
    · next h1 h =>
      simp only [reduceCtorEq, false_iff]
      rintro (⟨i, -, hi⟩ | ⟨-, k, -, hk⟩)
      · exact absurd i.isLt (by omega)
      · exact absurd k.isLt (by omega)

theorem destOf_cal {dst : BitVec 6} (s : Bool) {i : Fin 26} (h : dst.toNat = i.val) :
    destOf dst s = some (.cal i) := destOf_eq_some.2 (.inl ⟨i, rfl, h⟩)

theorem destOf_raw {dst : BitVec 6} {k : Fin 10} (h : dst.toNat = 32 + k.val) :
    destOf dst false = some (.raw k) := destOf_eq_some.2 (.inr ⟨rfl, k, rfl, h⟩)

/-- R80's `dest` condition is that a destination exists. -/
theorem destLegal_iff (dst : BitVec 6) (s : Bool) : destLegal dst s = true ↔ ∃ d, destOf dst s = some d := by
  unfold destLegal destOf
  cases s <;> split <;> rename_i h
  · simp; omega
  · split <;> rename_i h' <;> simp <;> omega
  · simp; omega
  · split <;> rename_i h' <;> simp <;> omega

/-! ### The checks of decode commands -/

/-- Everything the source check can let through (R121). -/
theorem sourceCheck_ok {offs : List Nat} {s t : State} {k : Except ErrCode State} :
    sourceCheck offs s k = .ok t ↔
      (∀ a ∈ offs, a < Config.bufSize) ∧ (∀ a ∈ offs, Memory.valid s.buf a = true) ∧ k = .ok t := by
  simp [sourceCheck, require_ok]

/-- Everything a decode to a calibration register can do when it completes (R123). -/
theorem decodeCal_ok {i : Fin 26} {offs : List Nat} {v : Word} {s t : State} :
    decodeCal i offs v s = .ok t ↔
      s.istate = .fetching ∧ inRequired i s = true ∧ (∀ a ∈ offs, a < Config.bufSize) ∧
      (∀ a ∈ offs, Memory.valid s.buf a = true) ∧ calValid i s = false ∧ t = respond 0 (writeCal i v s) := by
  simp only [decodeCal, sourceCheck, require_ok, Except.ok.injEq, eq_comm (b := t)]
  cases s.istate <;> simp

/-- Everything a decode to a raw register can do when it completes (R124). -/
theorem decodeRaw_ok {k : Fin 10} {offs : List Nat} {v : Word} {s t : State} :
    decodeRaw k offs v s = .ok t ↔
      s.istate = .ready ∧ inRawSet k s = true ∧ (∀ a ∈ offs, a < Config.bufSize) ∧
      (∀ a ∈ offs, Memory.valid s.buf a = true) ∧ rawValid k s = false ∧ t = respond 0 (writeRaw k v s) := by
  simp only [decodeRaw, sourceCheck, require_ok, Except.ok.injEq, eq_comm (b := t)]

/-- Everything a decode command other than DECGAS can do when it completes. -/
theorem decodeTo_ok {dst : BitVec 6} {sgn : Bool} {offs : List Nat} {v : Word} {s t : State}
    (h : decodeTo dst sgn offs v s = .ok t) :
    (∃ i : Fin 26, dst.toNat = i.val ∧ s.istate = .fetching ∧ inRequired i s = true ∧ calValid i s = false ∧
      t = respond 0 (writeCal i v s)) ∨
    (∃ k : Fin 10, sgn = false ∧ dst.toNat = 32 + k.val ∧ s.istate = .ready ∧ inRawSet k s = true ∧
      rawValid k s = false ∧ t = respond 0 (writeRaw k v s)) := by
  unfold decodeTo at h
  split at h
  · next i hi =>
    obtain ⟨h1, h2, -, -, h5, h6⟩ := decodeCal_ok.1 h
    rcases destOf_eq_some.1 hi with ⟨j, hj, hd⟩ | ⟨-, k, hk, -⟩
    · cases hj; exact .inl ⟨i, hd, h1, h2, h5, h6⟩
    · cases hk
  · next k hk =>
    obtain ⟨h1, h2, -, -, h5, h6⟩ := decodeRaw_ok.1 h
    rcases destOf_eq_some.1 hk with ⟨j, hj, -⟩ | ⟨hs, j, hj, hd⟩
    · cases hj
    · cases hj; exact .inr ⟨k, hs, hd, h1, h2, h5, h6⟩
  · cases h

/-- Everything DECGAS can do when it completes (R132). -/
theorem decodeGas_ok {a : Nat} {s t : State} :
    decodeGas a s = .ok t ↔
      s.istate = .ready ∧ (inRawSet Raw.G s = true ∧ inRawSet Raw.GRANGE s = true) ∧
      (∀ x ∈ [a, a + 1], x < Config.bufSize) ∧ (∀ x ∈ [a, a + 1], Memory.valid s.buf x = true) ∧
      (rawValid Raw.G s = false ∧ rawValid Raw.GRANGE s = false) ∧
      t = respond 0
        (writeRaw Raw.GRANGE (widen false (gasRange (Memory.cell s.buf (a + 1))))
          (writeRaw Raw.G (widen false (gasCount (Memory.cell s.buf a) (Memory.cell s.buf (a + 1)))) s)) := by
  simp only [decodeGas, sourceCheck, require_ok, Except.ok.injEq, eq_comm (b := t)]

/-! ### The command port and the latch -/

@[simp] theorem takeCommand_nil {s : State} (h : s.cmds = []) : takeCommand s = none := by
  simp [takeCommand, h]

@[simp] theorem takeCommand_cons {s : State} {w : Word} {rest : List Word} (h : s.cmds = w :: rest) :
    takeCommand s = some (w, { s with cmds := rest }) := by
  simp [takeCommand, h]

/-- Everything a step can do (R203): wait, ignore, raise E_ILLEGAL, or run the decoded command. -/
theorem step_cases {s t : State} (h : step s = .next t) :
    (s.cmds = [] ∧ t = s) ∨
    ∃ w rest, s.cmds = w :: rest ∧
      ((s.fault = true ∧ latchAccepts w = false ∧ t = ignore { s with cmds := rest }) ∨
       ((s.fault = false ∨ latchAccepts w = true) ∧
         ((∃ r, decode w = .error r ∧ t = raise .illegal w { s with cmds := rest }) ∨
          (∃ i, decode w = .ok i ∧ exec i { s with cmds := rest } = .next t)))) := by
  unfold step at h
  cases hc : s.cmds with
  | nil => rw [takeCommand_nil hc] at h; cases h; exact .inl ⟨rfl, rfl⟩
  | cons w rest =>
    rw [takeCommand_cons hc] at h
    refine .inr ⟨w, rest, rfl, ?_⟩
    dsimp only at h
    split at h
    · next hl =>
      cases h
      obtain ⟨h1, h2⟩ := by simpa [latched] using hl
      exact .inl ⟨h1, h2, rfl⟩
    · next hl =>
      refine .inr ⟨by simpa [latched, or_iff_not_imp_left] using hl, ?_⟩
      split at h
      · next r hr => cases h; exact .inl ⟨r, hr, rfl⟩
      · next i hi => exact .inr ⟨i, hi, h⟩

/-- With FAULT = 0 a step is the decoded command, or E_ILLEGAL. -/
theorem step_unlatched {s : State} {w : Word} {rest : List Word} (hf : s.fault = false) (hc : s.cmds = w :: rest) :
    step s = match decode w with
      | .error _ => .next (raise .illegal w { s with cmds := rest })
      | .ok i => exec i { s with cmds := rest } := by
  have hl : latched w { s with cmds := rest } = false := by simp [latched, hf]
  simp only [step, takeCommand_cons hc, hl]
  rfl

end Sys2Proof.Machine
end

