-- ==== Sys2Proof/Laws/Exec.lean ====
section
/-! SUPPORT. Everything a command can do, said once: it completes with the effect of its rule, or it raises a fault and
changes the latch alone. Proofs over all commands take `exec_cases` and one case per constructor. -/

namespace Sys2Proof.Machine

open Sys2Proof.Safety

/-- A decode command with value v has written its destination and nothing else (R123, R124). -/
def DecodeWrites (dst : BitVec 6) (sgn : Bool) (v : Word) (s t : State) : Prop :=
  (∃ i : Fin 26, dst.toNat = i.val ∧ s.istate = .fetching ∧ inRequired i s = true ∧ calValid i s = false ∧
    t = respond 0 (writeCal i v s)) ∨
  (∃ k : Fin 10, sgn = false ∧ dst.toNat = 32 + k.val ∧ s.istate = .ready ∧ inRawSet k s = true ∧
    rawValid k s = false ∧ t = respond 0 (writeRaw k v s))

/-- t is what a command leaves when no test of its rule fails in s. -/
def Completes (i : Instr) (s t : State) : Prop :=
  match i with
  | .reset => t = respond 0 (resetState s)
  | .calbegin fam => ∃ f, familyOf fam = some f ∧ s.istate = .uninitialized ∧
      t = respond 0 { s with family := f, istate := .fetching }
  | .calcommit => s.istate = .fetching ∧ s.calV = required s.family ∧ t = respond 0 { s with istate := .ready }
  | .errclr => t = respond 0 (clearFault s)
  | .cycle => s.istate = .ready ∧ t = respond 0 (newCycle s)
  | .rd _ => ∃ d, t = respond d s
  | .setslp imm => imm ≠ 0#20 ∧ t = respond 0 { s with slp := imm, slpV := true }
  | .ldb off b => t = respond 0 { s with buf := Memory.write s.buf off.toNat b }
  | .dec8 dst sgn a => DecodeWrites dst sgn (widen sgn (Memory.cell s.buf a.toNat)) s t
  | .dec16le dst sgn a => DecodeWrites dst sgn
      (widen sgn (le16 (Memory.cell s.buf a.toNat) (Memory.cell s.buf (a.toNat + 1)))) s t
  | .dec16be dst sgn a => DecodeWrites dst sgn
      (widen sgn (be16 (Memory.cell s.buf a.toNat) (Memory.cell s.buf (a.toNat + 1)))) s t
  | .dec12hl dst sgn a b => DecodeWrites dst sgn
      (widen sgn (hl12 (Memory.cell s.buf a.toNat) (Memory.cell s.buf b.toNat))) s t
  | .dec12ms dst sgn a b => DecodeWrites dst sgn
      (widen sgn (ms12 (Memory.cell s.buf a.toNat) (Memory.cell s.buf b.toNat))) s t
  | .dec20 dst a => DecodeWrites dst false
      (widen false (msb20 (Memory.cell s.buf a.toNat) (Memory.cell s.buf (a.toNat + 1))
        (Memory.cell s.buf (a.toNat + 2)))) s t
  | .decbf dst sgn lsb wm1 a => lsb.toNat + wm1.toNat + 1 ≤ 8 ∧ DecodeWrites dst sgn
      (widen sgn (bitField (Memory.cell s.buf a.toNat) lsb.toNat (wm1.toNat + 1))) s t
  | .decgas a => s.istate = .ready ∧ (inRawSet Raw.G s = true ∧ inRawSet Raw.GRANGE s = true) ∧
      t = respond 0
        (writeRaw Raw.GRANGE (widen false (gasRange (Memory.cell s.buf (a.toNat + 1))))
          (writeRaw Raw.G (widen false (gasCount (Memory.cell s.buf a.toNat) (Memory.cell s.buf (a.toNat + 1)))) s))
      ∧ rawValid Raw.G s = false ∧ rawValid Raw.GRANGE s = false
  | .compt => s.istate = .ready ∧ s.family ≠ .U ∧ rawValid Raw.T s = true ∧
      t = respond 0 (writeRes Res.T (temperature s).2 (writeRes Res.TFINE (temperature s).1 s))
  | .compp => s.istate = .ready ∧ s.family ≠ .U ∧ resValid Res.TFINE s = true ∧ rawValid Raw.P s = true ∧
      t = respond 0 (writeRes Res.P (pressure s) s)
  | .comph => s.istate = .ready ∧ s.family ≠ .U ∧ resValid Res.TFINE s = true ∧ rawValid Raw.H s = true ∧
      t = respond 0 (writeRes Res.H (humidity s) s)
  | .alt => s.istate = .ready ∧ s.family ≠ .U ∧ resValid Res.P s = true ∧ s.slpV = true ∧ s.res[Res.P] ≠ 0#32 ∧
      t = respond 0 (writeRes Res.ALT (altFn s.res[Res.P].toNat (altDen s.family) s.slp.toNat) s)
  | .gasres => s.istate = .ready ∧ s.family = .B ∧ resValid Res.T s = true ∧
      (rawValid Raw.G s = true ∧ rawValid Raw.GRANGE s = true) ∧
      t = respond 0 (writeRes Res.G (gasResistance s.raw[Raw.G] s.raw[Raw.GRANGE] s.cal[Cal.RSE]) s)
  | .heatres imm => s.istate = .ready ∧ s.family = .B ∧ resValid Res.T s = true ∧
      t = respond 0 (writeRes Res.HRES
        (heaterByte (heatTarget imm) s.res[Res.T] s.cal[Cal.G1] s.cal[Cal.G2] s.cal[Cal.G3] s.cal[Cal.RHR]
          s.cal[Cal.RHV]) s)
  | .heatdur imm => s.istate = .ready ∧ s.family = .B ∧ t = respond 0 (writeRes Res.HDUR (durationByte imm) s)
  | .uvi d => s.istate = .ready ∧ s.family = .U ∧
      (rawValid Raw.UVA s = true ∧ rawValid Raw.UVB s = true ∧ rawValid Raw.UVC1 s = true
        ∧ rawValid Raw.UVC2 s = true) ∧ (d = true → rawValid Raw.UVD s = true) ∧
      t = respond 0
        (writeUv (uvChannelA s.raw[Raw.UVA] s.raw[Raw.UVC1] s.raw[Raw.UVC2] (darkValue d s))
          (uvChannelB s.raw[Raw.UVB] s.raw[Raw.UVC1] s.raw[Raw.UVC2] (darkValue d s)) s)

/-- Every test of a command raises a fault, never E_NONE (R201). -/
theorem require_error_ne {c : Prop} [Decidable c] {e : ErrCode} {k : Except ErrCode State} (he : e ≠ .none)
    (hk : ∀ x, k = .error x → x ≠ .none) : ∀ x, require c e k = .error x → x ≠ .none := by
  intro x h
  rcases require_error.1 h with ⟨-, rfl⟩ | ⟨-, h⟩
  exacts [he, hk x h]

theorem ok_error_ne {t : State} : ∀ x, (Except.ok t : Except ErrCode State) = .error x → x ≠ .none := nofun

theorem decodeTo_error_ne (dst : BitVec 6) (sgn : Bool) (offs : List Nat) (v : Word) (s : State) :
    ∀ x, decodeTo dst sgn offs v s = .error x → x ≠ .none := by
  unfold decodeTo
  split
  · unfold decodeCal sourceCheck
    repeat (first | exact ok_error_ne | apply require_error_ne (by decide))
  · unfold decodeRaw sourceCheck
    repeat (first | exact ok_error_ne | apply require_error_ne (by decide))
  · rintro x ⟨⟩; decide

/-- A command's own rule, run to its end: the word it would latch, what it completes with, and that its faults are
faults. -/
theorem exec_complete (i : Instr) (s : State) : ∃ r : Except ErrCode State, exec i s = complete (encode i) s r ∧
    (∀ e, r = .error e → e ≠ .none) ∧ (∀ t, r = .ok t → Completes i s t) := by
  cases i
  case dec8 | dec16le | dec16be | dec12hl | dec12ms | dec20 =>
    exact ⟨_, rfl, decodeTo_error_ne _ _ _ _ _, fun t h => decodeTo_ok h⟩
  case decbf =>
    exact ⟨_, rfl, require_error_ne (by decide) (decodeTo_error_ne _ _ _ _ _),
      fun t h => ⟨(require_ok.1 h).1, decodeTo_ok (require_ok.1 h).2⟩⟩
  case decgas a =>
    refine ⟨_, rfl, ?_, fun t h => ?_⟩
    · unfold decodeGas sourceCheck
      repeat (first | exact ok_error_ne | apply require_error_ne (by decide))
    · obtain ⟨h1, h2, -, -, h5, h6⟩ := decodeGas_ok.1 h
      exact ⟨h1, h2, h6, h5⟩
  case calbegin fam =>
    refine ⟨_, rfl, ?_, fun t h => ?_⟩
    · split
      · rintro x ⟨⟩; decide
      · exact require_error_ne (by decide) ok_error_ne
    · split at h
      · cases h
      · next f hf =>
        simp only [require_ok, Except.ok.injEq] at h
        exact ⟨f, hf, h.1, h.2.symm⟩
  case rd n =>
    refine ⟨_, rfl, ?_, fun t h => ?_⟩
    · split
      · rintro x ⟨⟩; decide
      · unfold readSel
        split <;> first | exact ok_error_ne | exact require_error_ne (by decide) ok_error_ne
    · split at h
      · cases h
      · unfold readSel at h
        split at h <;> simp only [require_ok, Except.ok.injEq] at h
        · exact ⟨_, h.symm⟩
        all_goals exact ⟨_, h.2.symm⟩
  case reset | errclr | ldb => exact ⟨.ok _, rfl, ok_error_ne, fun t h => (Except.ok.inj h).symm⟩
  all_goals
    refine ⟨_, rfl, ?_, fun t h => ?_⟩
    · repeat (first | exact ok_error_ne | apply require_error_ne (by decide))
    · simpa only [require_ok, Except.ok.injEq, Completes, eq_comm (b := t)] using h

/-- Everything a command can do (R203, R204). -/
theorem exec_cases {i : Instr} {s t : State} (h : exec i s = .next t) :
    (∃ e, e ≠ .none ∧ t = raise e (encode i) s) ∨ Completes i s t := by
  obtain ⟨r, hr, he, hc⟩ := exec_complete i s
  rw [hr, complete_next] at h
  rcases h with rfl | ⟨e, rfl, rfl⟩
  · exact .inr (hc t rfl)
  · exact .inl ⟨e, he e rfl, rfl⟩

/-- A command that completes answers `ok`, with a datum other than 0 only from RD (R16), and leaves the command port
alone. -/
theorem Completes.answers {i : Instr} {s t : State} (h : Completes i s t) :
    t.cmds = s.cmds ∧ ∃ d, t.resp = some (.ok d) ∧ (d ≠ 0 → ∃ n, i = .rd n) := by
  cases i
  case dec8 | dec16le | dec16be | dec12hl | dec12ms | dec20 =>
    rcases h with ⟨_, _, _, _, _, rfl⟩ | ⟨_, _, _, _, _, _, rfl⟩ <;> exact ⟨rfl, 0, rfl, by simp⟩
  case decbf =>
    rcases h with ⟨_, ⟨_, _, _, _, _, rfl⟩ | ⟨_, _, _, _, _, _, rfl⟩⟩ <;> exact ⟨rfl, 0, rfl, by simp⟩
  case rd n => obtain ⟨d, rfl⟩ := h; exact ⟨rfl, d, rfl, fun _ => ⟨n, rfl⟩⟩
  case reset | errclr | ldb => cases h; exact ⟨rfl, 0, rfl, by simp⟩
  case calbegin => obtain ⟨_, _, _, rfl⟩ := h; exact ⟨rfl, 0, rfl, by simp⟩
  case decgas => obtain ⟨_, _, rfl, _⟩ := h; exact ⟨rfl, 0, rfl, by simp⟩
  case cycle | setslp => obtain ⟨_, rfl⟩ := h; exact ⟨rfl, 0, rfl, by simp⟩
  case calcommit | heatdur => obtain ⟨_, _, rfl⟩ := h; exact ⟨rfl, 0, rfl, by simp⟩
  case compt | heatres => obtain ⟨_, _, _, rfl⟩ := h; exact ⟨rfl, 0, rfl, by simp⟩
  case compp | comph | gasres | uvi => obtain ⟨_, _, _, _, rfl⟩ := h; exact ⟨rfl, 0, rfl, by simp⟩
  case alt => obtain ⟨_, _, _, _, _, rfl⟩ := h; exact ⟨rfl, 0, rfl, by simp⟩

/-- A command that answers `ok` has completed. -/
theorem exec_answersOk {i : Instr} {s t : State} (h : exec i s = .next t) (ha : answersOk t) : Completes i s t := by
  rcases exec_cases h with ⟨e, -, rfl⟩ | h
  · obtain ⟨d, hd⟩ := ha; cases hd
  · exact h

end Sys2Proof.Machine
end

