-- ==== Sys2Proof/Laws/Fixed.lean ====
section
/-! SUPPORT. Each operation of `Machine/Fixed.lean` is `wrapW` of the mathematical result (R12), as `Formulas` writes it:
one lemma per node kind, for W = 32 and W = 64. -/

namespace Sys2Proof.Laws

open Sys2Proof.Machine

theorem toInt_add32 (x y : Word) : (x + y).toInt = Formulas.w32 (x.toInt + y.toInt) := BitVec.toInt_add x y

theorem toInt_sub32 (x y : Word) : (x - y).toInt = Formulas.w32 (x.toInt - y.toInt) := BitVec.toInt_sub

theorem toInt_mul32 (x y : Word) : (x * y).toInt = Formulas.w32 (x.toInt * y.toInt) := BitVec.toInt_mul x y

theorem toInt_tdiv32 (x y : Word) : (tdiv x y).toInt = Formulas.w32 (Formulas.tdiv x.toInt y.toInt) :=
  BitVec.toInt_sdiv x y

theorem toInt_add64 (x y : BitVec 64) : (x + y).toInt = Formulas.w64 (x.toInt + y.toInt) := BitVec.toInt_add x y

theorem toInt_sub64 (x y : BitVec 64) : (x - y).toInt = Formulas.w64 (x.toInt - y.toInt) := BitVec.toInt_sub

theorem toInt_mul64 (x y : BitVec 64) : (x * y).toInt = Formulas.w64 (x.toInt * y.toInt) := BitVec.toInt_mul x y

theorem toInt_tdiv64 (x y : BitVec 64) : (tdiv x y).toInt = Formulas.w64 (Formulas.tdiv x.toInt y.toInt) :=
  BitVec.toInt_sdiv x y

/-- `sra` needs no wrapping (R12). -/
theorem toInt_sra {w : Nat} (x : BitVec w) (n : Nat) : (sra x n).toInt = Formulas.sra x.toInt n := by
  simp [sra, Formulas.sra, BitVec.toInt_sshiftRight, Int.shiftRight_eq_div_pow]

theorem toInt_shl {w : Nat} (x : BitVec w) (n : Nat) :
    (shl x n).toInt = Formulas.wrap w (Formulas.shl x.toInt n) := by
  simp only [shl, Formulas.wrap, Formulas.shl, BitVec.toInt_shiftLeft, Nat.shiftLeft_eq]
  rw [BitVec.toInt_eq_toNat_bmod, Int.bmod_mul_bmod]
  push_cast
  rfl

theorem toInt_shl32 (x : Word) (n : Nat) : (shl x n).toInt = Formulas.w32 (Formulas.shl x.toInt n) := toInt_shl x n

theorem toInt_shl64 (x : BitVec 64) (n : Nat) : (shl x n).toInt = Formulas.w64 (Formulas.shl x.toInt n) :=
  toInt_shl x n

/-- A register enters a 64-bit block with its signed value (R12). -/
theorem toInt_s64 (x : Word) : (s64 x).toInt = x.toInt := BitVec.toInt_signExtend_of_le (by decide)

theorem toInt_lo32 (x : BitVec 64) : (lo32 x).toInt = Formulas.w32 x.toInt := by
  simp only [lo32, Formulas.w32, Formulas.wrap]
  rw [BitVec.toInt_setWidth, BitVec.toInt_eq_toNat_bmod]
  exact (Int.bmod_bmod_of_dvd (by decide)).symm

/-- `u32` of a word's own signed value is the word (R9, R13). -/
@[simp] theorem u32_toInt (x : Word) : Formulas.u32 x.toInt = x := BitVec.ofInt_toInt

/-- `u32` does not see a wrap at width 32 (R9). -/
theorem u32_w32 (x : Int) : Formulas.u32 (Formulas.w32 x) = Formulas.u32 x := by
  apply BitVec.eq_of_toInt_eq
  simp [Formulas.u32, Formulas.w32, Formulas.wrap]

end Sys2Proof.Laws
end

