-- ==== Sys2Proof/Laws/Registers.lean ====
section
/-! SUPPORT. Register writes (R13): the written register reads back, every other one and its valid bit stay; and the
values decode commands write (R11, R53). -/

namespace Sys2Proof.Machine

/-- A write to one register of a file (R13). -/
theorem getElem_set_fin {n : Nat} (v : Vector Word n) (i k : Fin n) (x : Word) :
    (v.set i x)[k] = if i = k then x else v[k] := by
  simp only [Fin.getElem_fin, Vector.getElem_set, Fin.ext_iff]

theorem calValid_writeCal (i j : Fin 26) (v : Word) (s : State) :
    calValid j (writeCal i v s) = (calValid j s || decide (i = j)) := by
  rw [calValid, writeCal_calV, getLsbD_setBit, calValid]; simp [Fin.ext_iff]

theorem rawValid_writeRaw (i j : Fin 10) (v : Word) (s : State) :
    rawValid j (writeRaw i v s) = (rawValid j s || decide (i = j)) := by
  rw [rawValid, writeRaw_rawV, getLsbD_setBit, rawValid]; simp [Fin.ext_iff]

theorem resValid_writeRes (i j : Fin 11) (v : Word) (s : State) :
    resValid j (writeRes i v s) = (resValid j s || decide (i = j)) := by
  rw [resValid, writeRes_resV, getLsbD_setBit, resValid]; simp [Fin.ext_iff]

@[simp] theorem calValid_respond (i : Fin 26) (d : Word) (s : State) :
    calValid i (respond d s) = calValid i s := (rfl)

@[simp] theorem rawValid_respond (k : Fin 10) (d : Word) (s : State) :
    rawValid k (respond d s) = rawValid k s := (rfl)

@[simp] theorem resValid_respond (k : Fin 11) (d : Word) (s : State) :
    resValid k (respond d s) = resValid k s := (rfl)

/-- Setting a bit that is set changes nothing. -/
theorem setBit_of_set {n : Nat} {v : BitVec n} {i : Nat} (h : v.getLsbD i = true) : setBit v i = v := by
  refine BitVec.eq_of_getLsbD_eq fun k hk => ?_
  rw [getLsbD_setBit]
  by_cases hik : i = k
  · subst hik; simp [h]
  · simp [hik]

/-- An unsigned field reads as itself (R13, R53). -/
theorem toInt_widen_unsigned {n : Nat} (v : BitVec n) (hn : n < 32) : (widen false v).toInt = v.toNat := by
  have h := lt_of_lt_of_le v.isLt (Nat.pow_le_pow_right (n := 2) (by decide) (Nat.le_of_lt_succ hn))
  have hz : (v.setWidth 32).toNat = v.toNat := by simp; omega
  rw [widen, if_neg (by decide), BitVec.toInt_eq_toNat_of_lt (by omega), hz]

/-- A signed field reads as its two's complement value (R11). -/
theorem toInt_widen_signed {n : Nat} (v : BitVec n) (hn : n ≤ 32) : (widen true v).toInt = v.toInt := by
  rw [widen, if_pos rfl]
  exact BitVec.toInt_signExtend_of_le hn

/-- `sext_N` of a field (R11). -/
theorem toInt_eq_sext {n : Nat} (v : BitVec n) (hn : 0 < n) : v.toInt = Formulas.sext n v.toNat := by
  obtain ⟨m, rfl⟩ : ∃ m, n = m + 1 := ⟨n - 1, by omega⟩
  have hp : (2 : Nat) ^ (m + 1) = 2 * 2 ^ m := by rw [Nat.pow_succ]; omega
  rw [BitVec.toInt_eq_toNat_cond, Formulas.sext, Nat.add_sub_cancel]
  by_cases h : 2 * v.toNat < 2 ^ (m + 1)
  · rw [if_pos h, if_pos (by exact_mod_cast (by omega : v.toNat < 2 ^ m))]
  · rw [if_neg h, if_neg (by
      intro hc
      have : v.toNat < 2 ^ m := by exact_mod_cast hc
      omega)]
    push_cast
    rfl

/-- A test for zero on the pattern is a test on the signed value (R155, R156, R181, R183). -/
theorem eq_zero_iff_toInt {w : Nat} (x : BitVec w) : x = 0 ↔ x.toInt = 0 := by
  rw [← BitVec.toInt_inj]; simp

end Sys2Proof.Machine
end

