-- ==== Sys2Proof/Laws/Formulas.lean ====
section
/-! SUPPORT. The machine's formulas on bit vectors have the signed values that the rules' integer pseudocode gives, node by
node (R12): one lemma per formula of 42_comp_env.md and 43_comp_gas_uv.md. -/

namespace Sys2Proof.Laws

open Sys2Proof.Machine

/-- `TempA` (R152). -/
theorem tempA_toInt (adc t1 t2 t3 : Word) : Formulas.tempA adc.toInt t1.toInt t2.toInt t3.toInt =
    ((tempA adc t1 t2 t3).1.toInt, (tempA adc t1 t2 t3).2.toInt) := by
  simp only [tempA, Formulas.tempA, toInt_add32, toInt_sub32, toInt_mul32, toInt_sra, toInt_shl32]
  rfl

/-- `TempB` (R153). -/
theorem tempB_toInt (adc t1 t2 t3 : Word) : Formulas.tempB adc.toInt t1.toInt t2.toInt t3.toInt =
    ((tempB adc t1 t2 t3).1.toInt, (tempB adc t1 t2 t3).2.toInt) := by
  simp only [tempB, Formulas.tempB, toInt_add32, toInt_mul32, toInt_sra, toInt_shl64, toInt_add64, toInt_sub64,
    toInt_mul64, toInt_lo32, toInt_s64]
  rfl

/-- `PressA` (R155). -/
theorem pressA_u32 (adc tf p1 p2 p3 p4 p5 p6 p7 p8 p9 : Word) :
    Formulas.u32 (Formulas.pressA adc.toInt tf.toInt p1.toInt p2.toInt p3.toInt p4.toInt p5.toInt p6.toInt p7.toInt
      p8.toInt p9.toInt) = pressA adc tf p1 p2 p3 p4 p5 p6 p7 p8 p9 := by
  have hc : (140737488355328 : BitVec 64).toInt = 140737488355328 := by decide
  have hc2 : (128000 : BitVec 64).toInt = 128000 := by decide
  have hc3 : (1048576 : BitVec 64).toInt = 1048576 := by decide
  have hc4 : (3125 : BitVec 64).toInt = 3125 := by decide
  have hden : (sra ((140737488355328 + (sra ((s64 tf - 128000) * (s64 tf - 128000) * s64 p3) 8 +
      shl ((s64 tf - 128000) * s64 p2) 12)) * s64 p1) 33).toInt =
      Formulas.pressADen tf.toInt p1.toInt p2.toInt p3.toInt := by
    simp only [Formulas.pressADen, toInt_sra, toInt_shl64, toInt_add64, toInt_sub64, toInt_mul64, toInt_s64, hc, hc2]
  rw [← BitVec.toInt_inj]
  simp only [pressA, Formulas.pressA]
  by_cases h : Formulas.pressADen tf.toInt p1.toInt p2.toInt p3.toInt = 0
  · rw [if_pos h, if_pos ((eq_zero_iff_toInt _).2 (hden.trans h))]
    rfl
  · rw [if_neg h, if_neg (fun hz => h (hden.symm.trans ((eq_zero_iff_toInt _).1 hz)))]
    simp only [hden, toInt_lo32, toInt_sra, toInt_shl64, toInt_add64, toInt_sub64, toInt_mul64, toInt_tdiv64, toInt_s64,
      hc2, hc3, hc4]
    simp [Formulas.u32, Formulas.w32, Formulas.wrap]

/-- `PressB` (R156). -/
theorem pressB_u32 (adc tf p1 p2 p3 p4 p5 p6 p7 p8 p9 p10 : Word) :
    Formulas.u32 (Formulas.pressB adc.toInt tf.toInt p1.toInt p2.toInt p3.toInt p4.toInt p5.toInt p6.toInt p7.toInt
      p8.toInt p9.toInt p10.toInt) = pressB adc tf p1 p2 p3 p4 p5 p6 p7 p8 p9 p10 := by
  have hc : (64000 : Word).toInt = 64000 := by decide
  have hc2 : (32768 : Word).toInt = 32768 := by decide
  have hc3 : (1048576 : Word).toInt = 1048576 := by decide
  have hc4 : (3125 : Word).toInt = 3125 := by decide
  have hc5 : (1073741824 : Word).toInt = 1073741824 := by decide
  have hden : (sra ((32768 + sra (sra (sra (sra (sra tf 1 - 64000) 2 * sra (sra tf 1 - 64000) 2) 13 * shl p3 5) 3 +
      sra (p2 * (sra tf 1 - 64000)) 1) 18) * p1) 15).toInt = Formulas.pressBDen tf.toInt p1.toInt p2.toInt p3.toInt := by
    simp only [Formulas.pressBDen, toInt_sra, toInt_shl32, toInt_add32, toInt_sub32, toInt_mul32, hc, hc2]
  rw [← u32_toInt (pressB adc tf p1 p2 p3 p4 p5 p6 p7 p8 p9 p10)]
  congr 1
  simp only [pressB, Formulas.pressB]
  by_cases h : Formulas.pressBDen tf.toInt p1.toInt p2.toInt p3.toInt = 0
  · rw [if_pos h, if_pos ((eq_zero_iff_toInt _).2 (hden.trans h))]
    rfl
  · rw [if_neg h, if_neg (fun hz => h (hden.symm.trans ((eq_zero_iff_toInt _).1 hz)))]
    have hite : ∀ (c : Prop) [Decidable c] (x y : Word), (if c then x else y).toInt = if c then x.toInt else y.toInt := by
      intro c _ x y; split <;> rfl
    simp only [hden, toInt_sra, toInt_shl32, toInt_add32, toInt_sub32, toInt_mul32, toInt_tdiv32, hite, hc, hc3, hc4, hc5,
      BitVec.sle_iff_toInt_le, ge_iff_le]

theorem toInt_ite {w : Nat} (c : Prop) [Decidable c] (x y : BitVec w) :
    (if c then x else y).toInt = if c then x.toInt else y.toInt := by split <;> rfl

/-- `HumA` (R158). -/
theorem humA_toInt (adc tf h1 h2 h3 h4 h5 h6 : Word) :
    Formulas.humA adc.toInt tf.toInt h1.toInt h2.toInt h3.toInt h4.toInt h5.toInt h6.toInt =
      (humA adc tf h1 h2 h3 h4 h5 h6).toInt := by
  have hc : (76800 : Word).toInt = 76800 := by decide
  have hc2 : (16384 : Word).toInt = 16384 := by decide
  have hc3 : (32768 : Word).toInt = 32768 := by decide
  have hc4 : (2097152 : Word).toInt = 2097152 := by decide
  have hc5 : (8192 : Word).toInt = 8192 := by decide
  have hc6 : (419430400 : Word).toInt = 419430400 := by decide
  have hc7 : (0 : Word).toInt = 0 := by decide
  simp only [humA, Formulas.humA, toInt_sra, toInt_shl32, toInt_add32, toInt_sub32, toInt_mul32, toInt_ite,
    BitVec.slt_iff_toInt_lt, hc, hc2, hc3, hc4, hc5, hc6, hc7, gt_iff_lt]

/-- `HumB` (R159). -/
theorem humB_toInt (adc tf h1 h2 h3 h4 h5 h6 h7 : Word) :
    Formulas.humB adc.toInt tf.toInt h1.toInt h2.toInt h3.toInt h4.toInt h5.toInt h6.toInt h7.toInt =
      (humB adc tf h1 h2 h3 h4 h5 h6 h7).toInt := by
  have hc : (5 : Word).toInt = 5 := by decide
  have hc2 : (128 : Word).toInt = 128 := by decide
  have hc3 : (16 : Word).toInt = 16 := by decide
  have hc4 : (100 : Word).toInt = 100 := by decide
  have hc5 : (16384 : Word).toInt = 16384 := by decide
  have hc6 : (1000 : Word).toInt = 1000 := by decide
  have hc7 : (0 : Word).toInt = 0 := by decide
  have hc8 : (100000 : Word).toInt = 100000 := by decide
  simp only [humB, Formulas.humB, toInt_sra, toInt_shl32, toInt_add32, toInt_sub32, toInt_mul32, toInt_tdiv32, toInt_ite,
    BitVec.slt_iff_toInt_lt, hc, hc2, hc3, hc4, hc5, hc6, hc7, hc8, gt_iff_lt]

/-- The tables of R180 at the index GRANGE AND 15. -/
theorem lut1_toInt (r : BitVec 4) : (lut1 r).toInt = Formulas.lut1.getD r.toNat 0 := by revert r; decide

theorem lut2_toInt (r : BitVec 4) : (lut2 r).toInt = Formulas.lut2.getD r.toNat 0 := by revert r; decide

/-- The formula of GASRES (R181). -/
theorem gasResistance_u32 (adc grange rse : Word) :
    Formulas.u32 (Formulas.gasres adc.toInt (grange.toNat % 16) rse.toInt) = gasResistance adc grange rse := by
  have hr : (grange.setWidth 4).toNat = grange.toNat % 16 := BitVec.toNat_setWidth ..
  have hc : (1340 : BitVec 64).toInt = 1340 := by decide
  have hc2 : (5 : BitVec 64).toInt = 5 := by decide
  have hc3 : (16777216 : BitVec 64).toInt = 16777216 := by decide
  have hv1 : (sra ((1340 + 5 * s64 rse) * lut1 (grange.setWidth 4)) 16).toInt =
      Formulas.gasV1 (grange.toNat % 16) rse.toInt := by
    simp only [Formulas.gasV1, toInt_sra, toInt_add64, toInt_mul64, toInt_s64, lut1_toInt, hr, hc, hc2]
  have hden : (shl (s64 adc) 15 - 16777216 + sra ((1340 + 5 * s64 rse) * lut1 (grange.setWidth 4)) 16).toInt =
      Formulas.gasDen adc.toInt (grange.toNat % 16) rse.toInt := by
    simp only [Formulas.gasDen, toInt_shl64, toInt_add64, toInt_sub64, toInt_s64, hv1, hc3]
  rw [← BitVec.toInt_inj]
  simp only [gasResistance, Formulas.gasres]
  by_cases h : Formulas.gasDen adc.toInt (grange.toNat % 16) rse.toInt = 0
  · rw [if_pos h, if_pos ((eq_zero_iff_toInt _).2 (hden.trans h))]
    rfl
  · rw [if_neg h, if_neg (fun hz => h (hden.symm.trans ((eq_zero_iff_toInt _).1 hz)))]
    simp only [hden, hv1, toInt_lo32, toInt_sra, toInt_add64, toInt_mul64, toInt_tdiv64, lut2_toInt, hr]
    simp [Formulas.u32, Formulas.w32, Formulas.wrap]

/-- The clamp of HEATRES (R183). -/
theorem heatTarget_toInt (imm : BitVec 20) :
    (heatTarget imm).toInt = if (imm.toNat : Int) > 400 then 400 else (imm.toNat : Int) := by
  have h := imm.isLt
  unfold heatTarget
  by_cases hi : 400 < imm.toNat
  · rw [if_pos hi, if_pos (by omega)]; decide
  · rw [if_neg hi, if_neg (by omega), BitVec.toInt_setWidth]
    exact Int.bmod_eq_of_le (by omega) (by omega)

/-- The formula of HEATRES (R183). -/
theorem heaterByte_u32 (imm : BitVec 20) (rt g1 g2 g3 rr rv : Word) :
    Formulas.u32 (Formulas.heatres imm.toNat rt.toInt g1.toInt g2.toInt g3.toInt rr.toInt rv.toInt) =
      heaterByte (heatTarget imm) rt g1 g2 g3 rr rv := by
  have hc : (100 : Word).toInt = 100 := by decide
  have hc2 : (1000 : Word).toInt = 1000 := by decide
  have hc3 : (256 : Word).toInt = 256 := by decide
  have hc4 : (154009 : Word).toInt = 154009 := by decide
  have hc5 : (5 : Word).toInt = 5 := by decide
  have hc6 : (3276800 : Word).toInt = 3276800 := by decide
  have hc7 : (10 : Word).toInt = 10 := by decide
  have hc8 : (784 : Word).toInt = 784 := by decide
  have hc9 : (2 : Word).toInt = 2 := by decide
  have hc10 : (4 : Word).toInt = 4 := by decide
  have hc11 : (131 : Word).toInt = 131 := by decide
  have hc12 : (65536 : Word).toInt = 65536 := by decide
  have hc13 : (250 : Word).toInt = 250 := by decide
  have hc14 : (34 : Word).toInt = 34 := by decide
  have hc15 : (50 : Word).toInt = 50 := by decide
  have hd1 : (rr + 4).toInt = Formulas.w32 (rr.toInt + 4) := by rw [toInt_add32, hc10]
  have hv5 : (131 * rv + 65536).toInt = Formulas.w32 (Formulas.w32 (131 * rv.toInt) + 65536) := by
    rw [toInt_add32, toInt_mul32, hc11, hc12]
  have hb : ∀ x : Word, ((x.setWidth 8).setWidth 32 : Word) = Formulas.u32 (x.toInt % 256) := by
    intro x
    apply BitVec.eq_of_toNat_eq
    have hx := x.isLt
    have h1 : x.toInt % 256 = ((x.toNat % 256 : Nat) : Int) := by
      rw [BitVec.toInt_eq_toNat_cond]
      split <;> omega
    simp only [BitVec.toNat_setWidth, Formulas.u32, h1, BitVec.ofInt_natCast, BitVec.toNat_ofNat]
  simp only [heaterByte, Formulas.heatres]
  rw [← heatTarget_toInt]
  by_cases h1 : Formulas.w32 (rr.toInt + 4) = 0
  · rw [if_pos h1, if_pos ((eq_zero_iff_toInt _).2 (hd1.trans h1))]
    rfl
  rw [if_neg h1, if_neg (fun hz => h1 (hd1.symm.trans ((eq_zero_iff_toInt _).1 hz)))]
  by_cases h5 : Formulas.w32 (Formulas.w32 (131 * rv.toInt) + 65536) = 0
  · rw [if_pos h5, if_pos ((eq_zero_iff_toInt _).2 (hv5.trans h5))]
    rfl
  rw [if_neg h5, if_neg (fun hz => h5 (hv5.symm.trans ((eq_zero_iff_toInt _).1 hz))), hb]
  simp only [toInt_add32, toInt_sub32, toInt_mul32, toInt_tdiv32, hc, hc2, hc3, hc4, hc5, hc6, hc7, hc8, hc9, hc10, hc11,
    hc12, hc13, hc14, hc15]

/-- The loop of HEATDUR (R185) below the sentinel. -/
theorem durationByte_eq (imm : BitVec 20) : durationByte imm = Formulas.u32 (Formulas.heatdur imm.toNat) := by
  unfold durationByte Formulas.heatdur
  by_cases h : 252 ≤ imm.toNat
  · rw [if_pos h, if_pos h]; rfl
  · rw [if_neg h, if_neg h]
    have : imm.toNat < 252 := by omega
    generalize imm.toNat = n at this
    interval_cases n <;> rfl

/-- `a100` of UVI (R187). -/
theorem uvChannelA_toInt (ua c1 c2 dk : Word) :
    (uvChannelA ua c1 c2 dk).toInt = Formulas.uvA ua.toInt c1.toInt c2.toInt dk.toInt := by
  have hc : (100 : BitVec 64).toInt = 100 := by decide
  have hc2 : (222 : BitVec 64).toInt = 222 := by decide
  have hc3 : (133 : BitVec 64).toInt = 133 := by decide
  simp only [uvChannelA, Formulas.uvA, toInt_sub64, toInt_mul64, toInt_s64, hc, hc2, hc3]

/-- `b100` of UVI (R187). -/
theorem uvChannelB_toInt (ub c1 c2 dk : Word) :
    (uvChannelB ub c1 c2 dk).toInt = Formulas.uvB ub.toInt c1.toInt c2.toInt dk.toInt := by
  have hc : (100 : BitVec 64).toInt = 100 := by decide
  have hc2 : (295 : BitVec 64).toInt = 295 := by decide
  have hc3 : (174 : BitVec 64).toInt = 174 := by decide
  simp only [uvChannelB, Formulas.uvB, toInt_sub64, toInt_mul64, toInt_s64, hc, hc2, hc3]

/-- R_UVI (R187). -/
theorem uvIndex_u32 (a b : BitVec 64) : Formulas.u32 (Formulas.uvI a.toInt b.toInt) = uvIndex a b := by
  have hc : (1461 : BitVec 64).toInt = 1461 := by decide
  have hc2 : (2591 : BitVec 64).toInt = 2591 := by decide
  have hc3 : (0 : BitVec 64).toInt = 0 := by decide
  have hs : (1461 * a + 2591 * b).toInt = Formulas.w64 (Formulas.w64 (1461 * a.toInt) + Formulas.w64 (2591 * b.toInt)) := by
    simp only [toInt_add64, toInt_mul64, hc, hc2]
  simp only [uvIndex, Formulas.uvI]
  rw [← hs]
  generalize 1461 * a + 2591 * b = t
  by_cases h : t.toInt ≤ 0
  · rw [if_pos h, if_pos (by rw [BitVec.sle_iff_toInt_le, hc3]; exact h)]
    rfl
  · rw [if_neg h, if_neg (by rw [BitVec.sle_iff_toInt_le, hc3]; exact h)]
    have ht : t.toInt = t.toNat := by
      have := t.isLt
      rw [BitVec.toInt_eq_toNat_cond] at h ⊢
      split at h <;> split <;> omega
    have hq : t.toInt / 200000 = ((t / 200000 : BitVec 64).toNat : Int) := by
      rw [ht, BitVec.toNat_udiv]; rfl
    rw [hq]
    apply BitVec.eq_of_toNat_eq
    simp only [Formulas.u32, BitVec.ofInt_natCast, BitVec.toNat_ofNat, lo32, BitVec.toNat_setWidth]

end Sys2Proof.Laws
end

