-- ==== Sys2Proof/Laws/PerInstr.lean ====
section
/-! SUPPORT. A fact about each instruction as syntax: the six top bits of its word are its row's opcode (R70, R78). -/

namespace Sys2Proof.Laws

/-- The opcode of R78. -/
def Opcode.code : Instr → Nat
  | .reset => 0x01
  | .calbegin _ => 0x02
  | .calcommit => 0x03
  | .errclr => 0x04
  | .cycle => 0x05
  | .rd _ => 0x06
  | .setslp _ => 0x07
  | .ldb _ _ => 0x08
  | .dec8 _ _ _ => 0x10
  | .dec16le _ _ _ => 0x11
  | .dec16be _ _ _ => 0x12
  | .dec12hl _ _ _ _ => 0x13
  | .dec12ms _ _ _ _ => 0x14
  | .dec20 _ _ => 0x15
  | .decbf _ _ _ _ _ => 0x16
  | .decgas _ => 0x17
  | .compt => 0x20
  | .compp => 0x21
  | .comph => 0x22
  | .alt => 0x23
  | .gasres => 0x24
  | .heatres _ => 0x25
  | .heatdur _ => 0x26
  | .uvi _ => 0x27

/-- The word of i carries i's opcode. -/
def Opcode.Statement (i : Instr) : Prop := opcodeOf (encode i) = Opcode.code i

/-- The top field of a word that starts with a six-bit opcode. -/
theorem opcodeOf_append (op : BitVec 6) (x : BitVec 26) : opcodeOf (op ++ x : BitVec 32) = op.toNat := by
  have hx := x.isLt
  have ho := op.isLt
  rw [opcodeOf, toNat_bits, toNat_append_eq]
  omega

theorem Opcode.reset : Opcode.Statement .reset := by
  unfold Opcode.Statement; decide

theorem Opcode.calbegin (fam : BitVec 2) : Opcode.Statement (.calbegin fam) := by
  simp only [Opcode.Statement, Opcode.code, encode, opcodeOf, toNat_bits, toNat_append_eq]
  bv_omega

theorem Opcode.calcommit : Opcode.Statement .calcommit := by
  unfold Opcode.Statement; decide

theorem Opcode.errclr : Opcode.Statement .errclr := by
  unfold Opcode.Statement; decide

theorem Opcode.cycle : Opcode.Statement .cycle := by
  unfold Opcode.Statement; decide

theorem Opcode.rd (rsel : BitVec 7) : Opcode.Statement (.rd rsel) := by
  simp only [Opcode.Statement, Opcode.code, encode, opcodeOf, toNat_bits, toNat_append_eq]
  bv_omega

theorem Opcode.setslp (imm20 : BitVec 20) : Opcode.Statement (.setslp imm20) := by
  simp only [Opcode.Statement, Opcode.code, encode, opcodeOf, toNat_bits, toNat_append_eq]
  bv_omega

theorem Opcode.ldb (off : BitVec 6) (imm8 : BitVec 8) : Opcode.Statement (.ldb off imm8) := by
  simp only [Opcode.Statement, Opcode.code, encode, opcodeOf, toNat_bits, toNat_append_eq]
  bv_omega

theorem Opcode.dec8 (dst : BitVec 6) (s : Bool) (offa : BitVec 6) : Opcode.Statement (.dec8 dst s offa) := by
  simp only [Opcode.Statement, Opcode.code, encode, opcodeOf, toNat_bits, toNat_append_eq]
  bv_omega

theorem Opcode.dec16le (dst : BitVec 6) (s : Bool) (offa : BitVec 6) : Opcode.Statement (.dec16le dst s offa) := by
  simp only [Opcode.Statement, Opcode.code, encode, opcodeOf, toNat_bits, toNat_append_eq]
  bv_omega

theorem Opcode.dec16be (dst : BitVec 6) (s : Bool) (offa : BitVec 6) : Opcode.Statement (.dec16be dst s offa) := by
  simp only [Opcode.Statement, Opcode.code, encode, opcodeOf, toNat_bits, toNat_append_eq]
  bv_omega

theorem Opcode.dec12hl (dst : BitVec 6) (s : Bool) (offa offb : BitVec 6) :
    Opcode.Statement (.dec12hl dst s offa offb) := by
  simp only [Opcode.Statement, Opcode.code, encode, opcodeOf, toNat_bits, toNat_append_eq]
  bv_omega

theorem Opcode.dec12ms (dst : BitVec 6) (s : Bool) (offa offb : BitVec 6) :
    Opcode.Statement (.dec12ms dst s offa offb) := by
  simp only [Opcode.Statement, Opcode.code, encode, opcodeOf, toNat_bits, toNat_append_eq]
  bv_omega

theorem Opcode.dec20 (dst : BitVec 6) (offa : BitVec 6) : Opcode.Statement (.dec20 dst offa) := by
  simp only [Opcode.Statement, Opcode.code, encode, opcodeOf, toNat_bits, toNat_append_eq]
  bv_omega

theorem Opcode.decbf (dst : BitVec 6) (s : Bool) (lsb wm1 : BitVec 3) (offa : BitVec 6) :
    Opcode.Statement (.decbf dst s lsb wm1 offa) := by
  simp only [Opcode.Statement, Opcode.code, encode, opcodeOf, toNat_bits, toNat_append_eq]
  bv_omega

theorem Opcode.decgas (offa : BitVec 6) : Opcode.Statement (.decgas offa) := by
  simp only [Opcode.Statement, Opcode.code, encode, opcodeOf, toNat_bits, toNat_append_eq]
  bv_omega

theorem Opcode.compt : Opcode.Statement .compt := by
  unfold Opcode.Statement; decide

theorem Opcode.compp : Opcode.Statement .compp := by
  unfold Opcode.Statement; decide

theorem Opcode.comph : Opcode.Statement .comph := by
  unfold Opcode.Statement; decide

theorem Opcode.alt : Opcode.Statement .alt := by
  unfold Opcode.Statement; decide

theorem Opcode.gasres : Opcode.Statement .gasres := by
  unfold Opcode.Statement; decide

theorem Opcode.heatres (imm20 : BitVec 20) : Opcode.Statement (.heatres imm20) := by
  simp only [Opcode.Statement, Opcode.code, encode, opcodeOf, toNat_bits, toNat_append_eq]
  bv_omega

theorem Opcode.heatdur (imm20 : BitVec 20) : Opcode.Statement (.heatdur imm20) := by
  simp only [Opcode.Statement, Opcode.code, encode, opcodeOf, toNat_bits, toNat_append_eq]
  bv_omega

theorem Opcode.uvi (d : Bool) : Opcode.Statement (.uvi d) := by
  simp only [Opcode.Statement, Opcode.code, encode, opcodeOf, toNat_bits, toNat_append_eq]
  bv_omega

end Sys2Proof.Laws
end

