-- ==== Sys2Proof/Laws/Values.lean ====
section
/-! SUPPORT. The values decode commands assemble, as the numbers of R125 to R132, and what is written of them (R11, R13). -/

namespace Sys2Proof.Machine

/-- What a decode writes is `u32` of `sext_N(v)` or of v (R11, R13). -/
theorem widen_eq_u32 {n : Nat} (s : Bool) (v : BitVec n) (h0 : 0 < n) (hn : n < 32) :
    widen s v = Formulas.u32 (if s then Formulas.sext n v.toNat else v.toNat) := by
  rw [← Laws.u32_toInt (widen s v)]
  cases s
  · rw [toInt_widen_unsigned v hn, if_neg (by decide)]
  · rw [toInt_widen_signed v (by omega), if_pos rfl, toInt_eq_sext v h0]

theorem toNat_le16 (b0 b1 : Byte) : (le16 b0 b1).toNat = b0.toNat + 256 * b1.toNat := by
  rw [le16, toNat_append_eq]; omega

theorem toNat_be16 (b0 b1 : Byte) : (be16 b0 b1).toNat = 256 * b0.toNat + b1.toNat := by
  rw [be16, toNat_append_eq]; omega

theorem toNat_lowNibble (b : Byte) : (lowNibble b).toNat = b.toNat % 16 := by
  simp [lowNibble, BitVec.extractLsb'_toNat]

theorem toNat_highNibble (b : Byte) : (highNibble b).toNat = b.toNat / 16 := by
  have := b.isLt
  simp only [highNibble, BitVec.extractLsb'_toNat, Nat.shiftRight_eq_div_pow]
  omega

theorem toNat_hl12 (a b : Byte) : (hl12 a b).toNat = 16 * a.toNat + b.toNat % 16 := by
  rw [hl12, toNat_append_eq, toNat_lowNibble]; omega

theorem toNat_ms12 (a b : Byte) : (ms12 a b).toNat = 16 * a.toNat + b.toNat / 16 := by
  rw [ms12, toNat_append_eq, toNat_highNibble]; omega

theorem toNat_msb20 (b0 b1 b2 : Byte) :
    (msb20 b0 b1 b2).toNat = 4096 * b0.toNat + 16 * b1.toNat + b2.toNat / 16 := by
  rw [msb20, toNat_append_eq, toNat_append_eq, toNat_highNibble]; omega

theorem toNat_bitField (b : Byte) (lsb n : Nat) : (bitField b lsb n).toNat = b.toNat / 2 ^ lsb % 2 ^ n := by
  rw [bitField, BitVec.extractLsb'_toNat, Nat.shiftRight_eq_div_pow]

theorem toNat_gasCount (b0 b1 : Byte) : (gasCount b0 b1).toNat = 4 * b0.toNat + b1.toNat / 64 := by
  have := b1.isLt
  rw [gasCount, toNat_append_eq, BitVec.extractLsb'_toNat, Nat.shiftRight_eq_div_pow]; omega

theorem toNat_gasRange (b1 : Byte) : (gasRange b1).toNat = b1.toNat % 16 := toNat_lowNibble b1

/-- The source check passes where every cell is listed (R121). -/
theorem sourceCheck_pass {offs : List Nat} {s : State} {k : Except ErrCode State} (h1 : ∀ a ∈ offs, a ≤ 63)
    (h2 : ∀ a ∈ offs, Memory.valid s.buf a = true) : sourceCheck offs s k = k := by
  have h : ∀ a ∈ offs, a < Config.bufSize := fun a ha => Nat.lt_succ_of_le (h1 a ha)
  rw [sourceCheck, require_pos h, require_pos h2]

/-- A decode that may write its calibration register does (R123). -/
theorem decodeTo_calOpen {dst : BitVec 6} {sgn : Bool} {offs : List Nat} {v : Word} {s : State} {i : Fin 26}
    (h : Safety.calOpen dst i s) (h1 : ∀ a ∈ offs, a ≤ 63) (h2 : ∀ a ∈ offs, Memory.valid s.buf a = true) :
    decodeTo dst sgn offs v s = .ok (respond 0 (writeCal i v s)) := by
  obtain ⟨hd, hi, hf, hv⟩ := h
  rw [decodeTo, destOf_cal sgn hd]
  exact decodeCal_ok.2 ⟨hi, (inRequired_iff i s).2 hf, fun a ha => Nat.lt_succ_of_le (h1 a ha), h2, hv, rfl⟩

/-- A decode that may write its raw register does (R124). -/
theorem decodeTo_rawOpen {dst : BitVec 6} {offs : List Nat} {v : Word} {s : State} {k : Fin 10}
    (h : Safety.rawOpen dst k s) (h1 : ∀ a ∈ offs, a ≤ 63) (h2 : ∀ a ∈ offs, Memory.valid s.buf a = true) :
    decodeTo dst false offs v s = .ok (respond 0 (writeRaw k v s)) := by
  obtain ⟨hd, hi, hf, hv⟩ := h
  rw [decodeTo, destOf_raw hd]
  exact decodeRaw_ok.2 ⟨hi, (inRawSet_iff k s).2 hf, fun a ha => Nat.lt_succ_of_le (h1 a ha), h2, hv, rfl⟩

theorem calWritten_eq (i : Fin 26) (v : Int) (s : State) :
    Safety.calWritten i v s = respond 0 (writeCal i (Formulas.u32 v) s) := rfl

theorem rawWritten_eq (k : Fin 10) (v : Int) (s : State) :
    Safety.rawWritten k v s = respond 0 (writeRaw k (Formulas.u32 v) s) := rfl

theorem resWritten_eq (k : Fin 11) (v : Int) (s : State) :
    Safety.resWritten k v s = respond 0 (writeRes k (Formulas.u32 v) s) := rfl

end Sys2Proof.Machine
end

