-- ==== Sys2Proof/Tests/Slice0.lean ====
section
/-! SUPPORT. Tests. Expected words and values are the spec's: encodings from R78 and R86, results from the examples of the
rules and of 95_test_vectors.md. The last part shows, for every statement with hypotheses, that something meets them. -/

namespace Sys2Proof.Tests

open Sys2Proof.Machine Sys2Proof.Safety

/-! ### Illegal commands are refused (R80), one per check -/

theorem test_wf_family3 : (Instr.calbegin 3).wf = false := by decide
theorem test_wf_unreadable : (Instr.rd 26).wf = false ∧ (Instr.rd 59).wf = false ∧ (Instr.rd 69).wf = false := by decide
theorem test_wf_bad_destination : (Instr.dec8 26 false 0).wf = false ∧ (Instr.dec20 42 0).wf = false := by decide
theorem test_wf_signed_raw : (Instr.dec16le 32 true 0).wf = false ∧ (Instr.dec16be 41 true 0).wf = false ∧
    (Instr.dec12hl 33 true 0 0).wf = false ∧ (Instr.dec12ms 33 true 0 0).wf = false := by decide
theorem test_wf_field_too_wide : (Instr.decbf 0 false 7 1 0).wf = false ∧ (Instr.decbf 0 false 7 0 0).wf = true := by
  decide

/-! ### Decoding (R78, R86); the format-D words with every field written out are R76's -/

theorem test_decode_reset : decode 0x04000000 = .ok .reset := by decide
theorem test_decode_calbegin : decode 0x08000001 = .ok (.calbegin 1) := by decide
theorem test_decode_calcommit : decode 0x0C000000 = .ok .calcommit := by decide
theorem test_decode_errclr : decode 0x10000000 = .ok .errclr := by decide
theorem test_decode_cycle : decode 0x14000000 = .ok .cycle := by decide
theorem test_decode_rd : decode 0x18000031 = .ok (.rd 49) := by decide
theorem test_decode_setslp : decode 0x1C018BCD = .ok (.setslp 101325) := by decide
theorem test_decode_ldb : decode 0b001000_000000000000_000101_01001010 = .ok (.ldb 5 0x4A) := by decide
theorem test_decode_dec8 : decode 0x40D00640 = .ok (.dec8 13 false 25) := by decide
theorem test_decode_dec16le : decode 0x44180080 = .ok (.dec16le 1 true 2) := by decide
theorem test_decode_dec16be : decode 0x4A200180 = .ok (.dec16be 34 false 6) := by decide
theorem test_decode_dec12hl : decode 0b010011_010010_1_000_000_0_010101_101010 = .ok (.dec12hl 18 true 21 42) := by decide
theorem test_decode_dec12ms : decode 0b010100_010001_0_000_000_0_011111_011110 = .ok (.dec12ms 17 false 31 30) := by
  decide
theorem test_decode_dec20 : decode 0x560000C0 = .ok (.dec20 32 3) := by decide
theorem test_decode_decbf : decode 0b010110_011001_1_100_011_0_101011_000000 = .ok (.decbf 25 true 4 3 43) := by decide
theorem test_decode_decgas : decode 0x5C000200 = .ok (.decgas 8) := by decide
theorem test_decode_compt : decode 0x80000000 = .ok .compt := by decide
theorem test_decode_compp : decode 0x84000000 = .ok .compp := by decide
theorem test_decode_comph : decode 0x88000000 = .ok .comph := by decide
theorem test_decode_alt : decode 0x8C000000 = .ok .alt := by decide
theorem test_decode_gasres : decode 0x90000000 = .ok .gasres := by decide
theorem test_decode_heatres : decode 0x94000140 = .ok (.heatres 320) := by decide
theorem test_decode_heatdur : decode 0x98000064 = .ok (.heatdur 100) := by decide
theorem test_decode_uvi : decode 0x9C000001 = .ok (.uvi true) := by decide

/-- Each clause of R82, and the two words it names. -/
theorem test_decode_refuses :
    decode 0x00000000 = .error .reservedOpcode ∧ decode 0xFFFFFFFF = .error .reservedOpcode ∧
    decode 0x04000001 = .error .mustBeZero ∧ decode 0x40001000 = .error .mustBeZero ∧
    decode 0x54080000 = .error .mustBeZero ∧ decode 0x08000003 = .error .reservedFamily ∧
    decode 0x1800001A = .error .unreadable ∧ decode 0x41A00000 = .error .badDestination ∧
    decode 0x42080000 = .error .signedRaw ∧ decode 0x58072000 = .error .fieldTooWide := by decide

/-- A table word is read as the number it is (R70, R78). -/
theorem test_table_word : decodeTableWord 32 0x2000054A = some (.ldb 5 0x4A) ∧ decodeTableWord 32 0 = none := by decide

theorem test_opcode_in_word : opcodeOf (encode (.decbf 25 true 4 3 43)) = 0x16 := by decide

/-! ### Small states -/

/-- Family A after COMPT of the golden scenario (R152, R155, R158; 95 P1). -/
def sampleA : State := { State.reset with
  istate := .ready, family := .A, calV := 0x007EFFF#26, rawV := 0x007#10, resV := 3, slp := 101325, slpV := true
  cal := #v[27504, 26435, -1000, 36477, -10685, 3024, 2855, 140, -7, 15500, -14600, 6000, 0,
    75, 361, 0, 315, 50, 30, 0, 0, 0, 0, 0, 0, 0]
  raw := #v[519888, 415148, 30000, 0, 0, 0, 0, 0, 0, 0]
  res := #v[128422, 2508, 0, 0, 0, 0, 0, 0, 0, 0, 0] }

/-- Family B after COMPT of the examples of R153, R156, R159, R181, R183. -/
def sampleB : State := { State.reset with
  istate := .ready, family := .B, calV := 0x3FFFFFF#26, rawV := 0x01F#10, resV := 3
  cal := #v[26041, 26469, 3, 36262, -10371, 88, 7310, -129, 30, 46, -3177, -2379, 30,
    759, 1007, 0, 45, 20, 120, -100, -30, -5969, 18, 1, 46, 1]
  raw := #v[482000, 340000, 20000, 400, 4, 0, 0, 0, 0, 0]
  res := #v[105576, 2062, 0, 0, 0, 0, 0, 0, 0, 0, 0] }

/-- Family U with the channels of R187's example. -/
def sampleU : State := { State.reset with
  istate := .ready, family := .U, rawV := 0x3E0#10, raw := #v[0, 0, 0, 0, 0, 1000, 1200, 100, 80, 10] }

/-- Family f with ISTATE i, nothing decoded, and some bytes of the calibration image and of a sample (R125 to R132). -/
def image (f : Family) (i : IState) : State := { State.reset with
  istate := i, family := f
  buf := [(0, 0x70), (1, 0x6B), (3, 0x7E), (4, 0xED), (5, 0x00), (6, 0x75), (7, 0x30), (8, 0x64), (9, 0x34),
    (29, 0x13), (30, 0x2B), (31, 0x03), (43, 0xF0), (61, 0x01), (62, 0x18), (63, 0xFC)] }

/-- s with the command words ws issued. -/
def issued (ws : List Word) (s : State) : State := { s with cmds := ws }

/-- A field of the next state. -/
def after {α : Type} (f : State → α) : Host.Outcome State Fault Refusal → Option α
  | .next t => some (f t)
  | .fault _ => none
  | .refused _ => none

theorem test_memory_wf : Memory.wf State.reset.buf ∧ Memory.wf (image .A .ready).buf := by decide

/-! ### Commands, on the examples of their rules -/

theorem test_reset : after (fun t => (sysValue .status t, t.resp)) (exec .reset sampleA) = some (0, some (.ok 0)) := by
  decide
theorem test_calbegin : after (sysValue .status) (exec (.calbegin 1) State.reset) = some 0x00000005 := by decide
theorem test_calcommit : after (sysValue .status) (exec .calcommit (image .U .fetching)) = some 0x0000000A := by decide
theorem test_calcommit_partial : after (fun t => (t.istate, t.err)) (exec .calcommit (image .A .fetching)) =
    some (.fetching, .calPartial) := by decide
theorem test_errclr : after (fun t => (t.fault, t.err, t.ecmd)) (exec .errclr (faulted .notReady 0x80000000 State.reset)) =
    some (false, .none, 0) := by decide
theorem test_cycle : after (fun t => (t.rawV, t.resV, t.buf, t.calV)) (exec .cycle sampleA) =
    some (0, 0, [], 0x007EFFF#26) := by decide
theorem test_rd : after (fun t => t.resp) (exec (.rd 49) sampleA) = some (some (.ok 0x000009CC)) := by decide
theorem test_rd_maps : after (fun t => t.resp) (exec (.rd 68) (image .A .ready)) = some (some (.ok 0xE0000800)) := by decide
theorem test_setslp : after (fun t => (t.slp, t.slpV)) (exec (.setslp 101325) State.reset) = some (101325, true) := by
  decide
theorem test_setslp_zero : after (fun t => (t.slpV, t.ecmd)) (exec (.setslp 0) State.reset) =
    some (false, 0x1C000000) := by decide
theorem test_ldb : after (fun t => t.buf) (exec (.ldb 5 0x4A) { State.reset with buf := [(5, 1), (6, 2)] }) =
    some [(5, 0x4A), (6, 2)] := by decide

/-- What a decode left in calibration register i. -/
def calOf (i : Fin 26) : Host.Outcome State Fault Refusal → Option (Word × Bool) :=
  after fun t => (t.cal[i], calValid i t)

/-- What a decode left in raw register 32 + k. -/
def rawOf (k : Fin 10) : Host.Outcome State Fault Refusal → Option (Word × Bool) :=
  after fun t => (t.raw[k], rawValid k t)

/-- What a compensation command left in result register 48 + k. -/
def resOf (k : Fin 11) : Host.Outcome State Fault Refusal → Option (Word × Bool) :=
  after fun t => (t.res[k], resValid k t)

theorem test_dec8 : calOf Cal.H1 (exec (.dec8 13 true 43) (image .A .fetching)) = some (-16, true) := by decide
theorem test_dec16le : calOf Cal.T1 (exec (.dec16le 0 false 0) (image .A .fetching)) = some (27504, true) := by decide
theorem test_dec16le_signed : calOf Cal.T3 (exec (.dec16le 2 true 62) (image .A .fetching)) = some (-1000, true) := by
  decide
theorem test_dec16be : rawOf Raw.H (exec (.dec16be 34 false 6) (image .A .ready)) = some (30000, true) := by decide
theorem test_dec16be_range : after (fun t => t.err) (exec (.dec16be 34 false 63) (image .A .ready)) = some .range := by
  decide
theorem test_dec12hl : calOf Cal.H4 (exec (.dec12hl 16 false 29 30) (image .A .fetching)) = some (315, true) := by decide
theorem test_dec12ms : calOf Cal.H5 (exec (.dec12ms 17 false 31 30) (image .A .fetching)) = some (50, true) := by decide
theorem test_dec20 : rawOf Raw.T (exec (.dec20 32 3) (image .A .ready)) = some (519888, true) := by decide
theorem test_dec20_absent : after (fun t => t.err) (exec (.dec20 32 4) { image .A .ready with buf := [(4, 1), (5, 1)] }) =
    some .bufInvalid := by decide
theorem test_decbf : calOf Cal.RSE (exec (.decbf 25 true 4 3 43) (image .B .fetching)) = some (-1, true) := by decide
theorem test_decbf_family : after (fun t => t.err) (exec (.decbf 25 true 4 3 43) (image .A .fetching)) = some .family := by
  decide
theorem test_decgas : rawOf Raw.G (exec (.decgas 8) (image .B .ready)) = some (400, true) ∧
    rawOf Raw.GRANGE (exec (.decgas 8) (image .B .ready)) = some (4, true) := by decide

theorem test_compt_A : resOf Res.TFINE (exec .compt sampleA) = some (128422, true) ∧
    resOf Res.T (exec .compt sampleA) = some (2508, true) := by decide
theorem test_compt_B : resOf Res.TFINE (exec .compt sampleB) = some (105576, true) ∧
    resOf Res.T (exec .compt sampleB) = some (2062, true) := by decide
theorem test_compp_A : resOf Res.P (exec .compp sampleA) = some (25767233, true) := by decide
theorem test_compp_B : resOf Res.P (exec .compp sampleB) = some (101176, true) := by decide
theorem test_comph_A : resOf Res.H (exec .comph sampleA) = some (55436, true) := by decide
theorem test_comph_B : resOf Res.H (exec .comph sampleB) = some (38670, true) := by decide
theorem test_alt : after (fun t => (resValid Res.ALT t, t.resp))
    (exec .alt { sampleA with res := #v[128422, 2508, 25767233, 0, 0, 0, 0, 0, 0, 0, 0], resV := 7 }) =
    some (true, some (.ok 0)) := by decide
theorem test_alt_zero : after (fun t => t.err) (exec .alt { sampleA with resV := 7 }) = some .domain := by decide
theorem test_gasres : resOf Res.G (exec .gasres sampleB) = some (544873, true) := by decide
theorem test_heatres : resOf Res.HRES (exec (.heatres 320) sampleB) = some (117, true) := by decide
theorem test_heatres_clamp : resOf Res.HRES (exec (.heatres 500) sampleB) = some (138, true) := by decide
theorem test_heatdur : resOf Res.HDUR (exec (.heatdur 100) sampleB) = some (0x59, true) ∧
    resOf Res.HDUR (exec (.heatdur 251) sampleB) = some (0x7E, true) := by decide
theorem test_heatdur_sentinel : resOf Res.HDUR (exec (.heatdur 252) sampleB) = some (0xFF, true) := by decide
theorem test_uvi : resOf Res.UVI (exec (.uvi false) sampleU) = some (1482, true) ∧
    resOf Res.UVA (exec (.uvi false) sampleU) = some (67160, true) := by decide
theorem test_uvi_dark : resOf Res.UVI (exec (.uvi true) sampleU) = some (1549, true) ∧
    resOf Res.UVB (exec (.uvi true) sampleU) = some (80270, true) := by decide

/-! ### Steps and the latch -/

/-- A word issued by `withFetchWord` is the next one run. -/
theorem test_step_runs : after (fun t => (t.istate, t.family, t.cmds))
    (step ((issued [0] State.reset).withFetchWord 32 0x08000002)) = some (.fetching, .U, [0]) := by decide
theorem test_step_illegal : after (fun t => (t.err, t.ecmd)) (step (issued [0xFFFFFFFF] sampleA)) =
    some (.illegal, 0xFFFFFFFF) := by decide
theorem test_latch_ignores : after (fun t => (t.resp, t.ecmd)) (step (issued [0x84000000] (faulted .invalid 7 sampleA))) =
    some (some .ignored, 7) := by decide
theorem test_latch_reads_status : after (fun t => t.resp) (step (issued [0x1800003D] (faulted .invalid 7 sampleA))) =
    some (some (.ok 0x72)) := by decide

/-! ### Every statement with hypotheses: something meets them, each clause at a boundary of its range -/

theorem test_hyp_DecodeEncodeAgree : (Instr.rd 68).wf = true ∧ (Instr.decbf 41 false 7 0 63).wf = true ∧
    (Instr.calbegin 2).wf = true := by decide

theorem test_hyp_DecodeDropsNoBit : decode 0x18000044 = .ok (.rd 68) ∧ decode 0x9C000001 = .ok (.uvi true) := by decide

theorem test_hyp_LegalWordsAreTheTableRows : rows[0].accepts 0x04000000 = true ∧ rows[23].accepts 0x9C000001 = true := by
  decide

theorem test_hyp_StepRunsTheDecodedCommand : (issued [0x14000000] sampleA).fault = false ∧
    (issued [0x14000000] sampleA).cmds = 0x14000000 :: [] ∧ decode 0x14000000 = .ok .cycle := by decide

theorem test_hyp_StepRunsTheEncodedCommand : (issued [encode (.dec8 26 true 0)] sampleA).fault = false ∧
    (issued [encode (.dec8 26 true 0)] sampleA).cmds = encode (.dec8 26 true 0) :: [] := by decide

theorem test_hyp_IllegalWordFaults : (issued [0x04000001] sampleA).cmds = 0x04000001 :: [] ∧
    (∀ r ∈ rows, r.accepts 0x04000001 = false) ∧ (issued [0x04000001] sampleA).fault = false ∧
    (issued [0x04000001] (faulted .seq 0 sampleA)).fault = true := by decide

theorem test_hyp_IllFormedCommandsAreIllegal : (Instr.calbegin 3).wf = false := by decide

/-- RESET, ERRCLR, RD 61, RD 68, and a word that is none of them. -/
theorem test_hyp_LatchAcceptsExactlyThree : (faulted .seq 0 sampleA).fault = true ∧
    (issued [0x04000000] (faulted .seq 0 sampleA)).cmds = 0x04000000 :: [] ∧
    (61#7).toNat = 61 ∧ (68#7).toNat = 68 ∧ 0x1800003D#32 = 0x18000000 ||| (61#7).setWidth 32 ∧
    0x18000044#32 = 0x18000000 ||| (68#7).setWidth 32 ∧
    ∀ n : BitVec 7, 61 ≤ n.toNat → n.toNat ≤ 68 → 0x18000045#32 ≠ 0x18000000 ||| n.setWidth 32 := by decide

theorem test_hyp_LatchedCommandsNeverFault : (issued [0x10000000] (faulted .seq 0 sampleA)).fault = true ∧
    ∃ t, step (issued [0x10000000] (faulted .seq 0 sampleA)) = .next t := ⟨by decide, _, rfl⟩

theorem test_hyp_OneResponsePerCommand : (issued [0x18000031] sampleA).cmds = 0x18000031 :: [] := by decide

theorem test_hyp_WaitsWithoutCommand : sampleA.cmds = [] := by decide

theorem test_hyp_FaultEntryWritesOnlyTheLatch :
    ∃ t, exec .calcommit sampleA = .next t ∧ t.resp = some (.fault .seq) := ⟨_, rfl, rfl⟩

theorem test_hyp_ErrclrUndoesAFault : sampleA.fault = false ∧ sampleA.err = .none ∧ sampleA.ecmd = 0 ∧
    ∃ t, exec (.rd 51) sampleA = .next t ∧ t.resp = some (.fault .invalid) := ⟨by decide, by decide, by decide, _, rfl, rfl⟩

/-- The latch, an illegal word, a command that faults by its last test, and one that does not fault. -/
theorem test_hyp_FirstFaultInOrder : (issued [0] (faulted .seq 0 sampleA)).fault = true ∧
    (∀ r ∈ rows, r.accepts 0 = false) ∧ decode 0x0C000000 = .ok .calcommit ∧
    (issued [0x0C000000] (image .A .fetching)).fault = false ∧
    firstFault .calcommit (issued [0x0C000000] (image .A .fetching)) = some .calPartial ∧
    firstFault .calcommit (issued [0x0C000000] (image .U .fetching)) = none := by decide

theorem test_hyp_FirstCommandAfterReset : (Instr.rd 60).wf = true ∧ (Instr.dec20 41 63).wf = true := by decide

/-- The three families, in the state CALBEGIN needs and in another. -/
theorem test_hyp_CalbeginRule : 0#2 = Family.A.code ∧ 1#2 = Family.B.code ∧ 2#2 = Family.U.code ∧
    State.reset.istate = .uninitialized ∧ sampleA.istate ≠ .uninitialized := by decide

theorem test_hyp_CalcommitRule : (image .U .fetching).istate = .fetching ∧
    (∀ i : Fin 26, calValid i (image .U .fetching) = true ↔ i.val ∈ Formulas.req (image .U .fetching).family) ∧
    sampleA.istate ≠ .fetching ∧
    ¬ ∀ i : Fin 26, calValid i (image .B .fetching) = true ↔ i.val ∈ Formulas.req (image .B .fetching).family := by decide

theorem test_hyp_CycleRule : sampleA.istate = .ready ∧ State.reset.istate ≠ .ready := by decide

/-- The least and the greatest register of each group, and an invalid register. -/
theorem test_hyp_RdRule : (0#7).toNat = (0 : Fin 26).val ∧ calValid 0 sampleB = true ∧
    (25#7).toNat = (25 : Fin 26).val ∧ calValid 25 sampleB = true ∧
    (32#7).toNat = 32 + (0 : Fin 10).val ∧ rawValid 0 sampleB = true ∧
    (41#7).toNat = 32 + (9 : Fin 10).val ∧ rawValid 9 sampleU = true ∧
    (48#7).toNat = 48 + (0 : Fin 11).val ∧ resValid 0 sampleB = true ∧
    (58#7).toNat = 48 + (10 : Fin 11).val ∧ resValid 10 { sampleU with resV := 0x700 } = true ∧
    (60#7).toNat = 60 ∧ sampleA.slpV = true ∧
    sysRegOf (61#7).toNat = some .status ∧ sysRegOf (68#7).toNat = some .bufvHi ∧
    (Instr.rd 58).wf = true ∧ validReg (58#7).toNat sampleA = false := by decide

theorem test_hyp_RdSystemRule : 61 ≤ (61#7).toNat ∧ (68#7).toNat ≤ 68 := by decide

theorem test_hyp_SetslpRule : (1#20) ≠ 0 ∧ (0xFFFFF#20) ≠ 0 := by decide

/-- The last cell, and a cell that is not the stored one. -/
theorem test_hyp_LdbRule : (63#6).toNat = 63 ∧ 0 ≠ (63#6).toNat := by decide

theorem test_hyp_Dec8Rule : (Instr.dec8 25 true 63).wf = true ∧
    firstFault (Instr.dec8 25 true 63) State.reset = some .seq ∧
    Memory.read (image .B .fetching).buf (63#6).toNat = some 0xFC ∧
    calOpen 25 25 (image .B .fetching) ∧ rawOpen 36 4 (image .B .ready) := by
  unfold calOpen rawOpen; decide

/-- The last offset from which two bytes can be read. -/
theorem test_hyp_Dec16leRule : (Instr.dec16le 0 true 62).wf = true ∧
    firstFault (Instr.dec16le 0 true 62) State.reset = some .seq ∧
    (62#6).toNat + 1 ≤ 63 ∧ Memory.read (image .B .fetching).buf (62#6).toNat = some 0x18 ∧
    Memory.read (image .B .fetching).buf ((62#6).toNat + 1) = some 0xFC ∧
    calOpen 0 0 (image .B .fetching) ∧ rawOpen 32 0 (image .B .ready) := by
  unfold calOpen rawOpen; decide

theorem test_hyp_Dec16beRule : (Instr.dec16be 18 true 62).wf = true ∧
    firstFault (Instr.dec16be 18 true 62) State.reset = some .seq ∧
    (62#6).toNat + 1 ≤ 63 ∧ Memory.read (image .U .ready).buf (62#6).toNat = some 0x18 ∧
    Memory.read (image .U .ready).buf ((62#6).toNat + 1) = some 0xFC ∧
    calOpen 18 18 (image .A .fetching) ∧ rawOpen 41 9 (image .U .ready) := by
  unfold calOpen rawOpen; decide

theorem test_hyp_Dec12hlRule : (Instr.dec12hl 16 true 29 30).wf = true ∧
    firstFault (Instr.dec12hl 16 true 29 30) State.reset = some .seq ∧
    Memory.read (image .A .fetching).buf (29#6).toNat = some 0x13 ∧
    Memory.read (image .A .fetching).buf (30#6).toNat = some 0x2B ∧
    calOpen 16 16 (image .A .fetching) ∧ rawOpen 34 2 (image .A .ready) := by
  unfold calOpen rawOpen; decide

theorem test_hyp_Dec12msRule : (Instr.dec12ms 17 true 63 63).wf = true ∧
    firstFault (Instr.dec12ms 17 true 63 63) State.reset = some .seq ∧
    Memory.read (image .A .fetching).buf (63#6).toNat = some 0xFC ∧
    Memory.read (image .A .fetching).buf (63#6).toNat = some 0xFC ∧
    calOpen 17 17 (image .A .fetching) ∧ rawOpen 32 0 (image .A .ready) := by
  unfold calOpen rawOpen; decide

/-- The last offset from which three bytes can be read. -/
theorem test_hyp_Dec20Rule : (Instr.dec20 0 61).wf = true ∧
    firstFault (Instr.dec20 0 61) State.reset = some .seq ∧
    (61#6).toNat + 2 ≤ 63 ∧ Memory.read (image .A .ready).buf (61#6).toNat = some 0x01 ∧
    Memory.read (image .A .ready).buf ((61#6).toNat + 1) = some 0x18 ∧
    Memory.read (image .A .ready).buf ((61#6).toNat + 2) = some 0xFC ∧
    calOpen 0 0 (image .A .fetching) ∧ rawOpen 34 2 (image .A .ready) := by
  unfold calOpen rawOpen; decide

/-- The narrowest field at the top of the byte, and the whole byte. -/
theorem test_hyp_DecbfRule : (Instr.decbf 23 true 7 0 43).wf = true ∧
    firstFault (Instr.decbf 23 true 7 0 43) State.reset = some .seq ∧
    (1 : Nat) = (0#3).toNat + 1 ∧ (7#3).toNat + 1 ≤ 8 ∧ (8 : Nat) = (7#3).toNat + 1 ∧
    (0#3).toNat + 8 ≤ 8 ∧ Memory.read (image .B .fetching).buf (43#6).toNat = some 0xF0 ∧
    calOpen 23 23 (image .B .fetching) ∧ rawOpen 36 4 (image .B .ready) := by
  unfold calOpen rawOpen; decide

/-- The first clause at its last offset, and the second clause one offset further. -/
theorem test_hyp_DecgasRule : (image .B .ready).istate = .ready ∧ (image .B .ready).family = .B ∧
    (62#6).toNat + 1 ≤ 63 ∧ Memory.read (image .B .ready).buf (62#6).toNat = some 0x18 ∧
    Memory.read (image .B .ready).buf ((62#6).toNat + 1) = some 0xFC ∧ rawValid Raw.G (image .B .ready) = false ∧
    rawValid Raw.GRANGE (image .B .ready) = false ∧ ¬ (63#6).toNat + 1 ≤ 63 := by decide

/-- One state and offset list for each clause: E_SEQ, E_CALLOCKED, E_FAMILY, E_RANGE, E_BUFINVALID, E_CALLOCKED. -/
theorem test_hyp_CalibrationDecodeChecks : (Instr.dec16le 12 true 63).wf = true ∧
    decodeForm (.dec16le 12 true 63) = some (12, [63, 64]) ∧ (12#6).toNat = (12 : Fin 26).val ∧
    (image .A .uninitialized).istate = .uninitialized ∧ (image .A .ready).istate = .ready ∧
    (image .A .fetching).istate = .fetching ∧ 12 ∉ Formulas.req .A ∧ 12 ∈ Formulas.req .B ∧
    (∃ a ∈ [63, 64], 63 < a) ∧
    decodeForm (.dec16le 12 true 1) = some (12, [1, 2]) ∧ (∀ a ∈ [1, 2], a ≤ 63) ∧
    (∃ a ∈ [1, 2], Memory.read (image .B .fetching).buf a = none) ∧
    decodeForm (.dec16le 12 true 62) = some (12, [62, 63]) ∧ (∀ a ∈ [62, 63], a ≤ 63) ∧
    (∀ a ∈ [62, 63], Memory.read (image .B .fetching).buf a ≠ none) ∧
    calValid 12 { image .B .fetching with calV := 0x1000#26 } = true := by decide

/-- One state and offset list for each clause: E_NOTREADY, E_FAMILY, E_RANGE, E_BUFINVALID, E_RAWSET. -/
theorem test_hyp_RawDecodeChecks : (Instr.dec20 34 62).wf = true ∧ decodeForm (.dec20 34 62) = some (34, [62, 63, 64]) ∧
    (34#6).toNat = 32 + (2 : Fin 10).val ∧ (image .A .fetching).istate ≠ .ready ∧ (image .A .ready).istate = .ready ∧
    34 ∉ Formulas.rawset .U ∧ 34 ∈ Formulas.rawset .A ∧ (∃ a ∈ [62, 63, 64], 63 < a) ∧
    decodeForm (.dec20 34 0) = some (34, [0, 1, 2]) ∧ (∃ a ∈ [0, 1, 2], Memory.read (image .A .ready).buf a = none) ∧
    decodeForm (.dec20 34 61) = some (34, [61, 62, 63]) ∧ (∀ a ∈ [61, 62, 63], a ≤ 63) ∧
    (∀ a ∈ [61, 62, 63], Memory.read (image .A .ready).buf a ≠ none) ∧
    rawValid 2 { image .A .ready with rawV := 4 } = true := by decide

theorem test_hyp_DecodedValueRanges :
    (∃ t, exec (.dec16le 2 true 62) (image .A .fetching) = .next t ∧ answersOk t) ∧
    (∃ t, exec (.dec20 32 61) (image .A .ready) = .next t ∧ answersOk t) ∧
    ∃ t, exec (.decgas 62) (image .B .ready) = .next t ∧ answersOk t :=
  ⟨⟨_, rfl, _, rfl⟩, ⟨_, rfl, _, rfl⟩, ⟨_, rfl, _, rfl⟩⟩

/-- Both clauses: the gates of COMPT pass for families A and B, and fail. -/
theorem test_hyp_ComptRule : sampleA.istate = .ready ∧ sampleA.family ≠ .U ∧ rawValid Raw.T sampleA = true ∧
    sampleB.istate = .ready ∧ sampleB.family ≠ .U ∧ rawValid Raw.T sampleB = true ∧ ¬ sampleU.family ≠ .U := by decide

theorem test_hyp_ComppRule : sampleA.istate = .ready ∧ resValid Res.TFINE sampleA = true ∧ rawValid Raw.P sampleA = true ∧
    sampleA.family = .A ∧ sampleB.istate = .ready ∧ resValid Res.TFINE sampleB = true ∧ rawValid Raw.P sampleB = true ∧
    sampleB.family = .B ∧ ¬ resValid Res.TFINE { sampleA with resV := 0 } = true := by decide

theorem test_hyp_ComphRule : sampleA.istate = .ready ∧ resValid Res.TFINE sampleA = true ∧ rawValid Raw.H sampleA = true ∧
    sampleA.family = .A ∧ sampleB.istate = .ready ∧ resValid Res.TFINE sampleB = true ∧ rawValid Raw.H sampleB = true ∧
    sampleB.family = .B ∧ ¬ rawValid Raw.H { sampleA with rawV := 3 } = true := by decide

/-- A pressure of 1, the least in the domain; 0 is the other clause. -/
theorem test_hyp_AltRule : sampleA.istate = .ready ∧ sampleA.family ≠ .U ∧
    resValid Res.P { sampleA with resV := 7 } = true ∧ sampleA.slpV = true ∧
    ({ sampleA with res := #v[0, 0, 1, 0, 0, 0, 0, 0, 0, 0, 0] }).res[Res.P].toNat ≠ 0 ∧
    ¬ sampleA.res[Res.P].toNat ≠ 0 := by decide

/-- The two corners of R161's domain. -/
theorem test_hyp_AltfnWithinTolerance : (1 ≤ 1 ∧ 1 ≤ 2 ^ 32 - 1 ∧ 256 = 256 ∧ 1 ≤ 2 ^ 20 - 1) ∧
    (1 ≤ 2 ^ 32 - 1 ∧ 2 ^ 32 - 1 ≤ 2 ^ 32 - 1 ∧ 1 ≤ 1 ∧ 1 ≤ 2 ^ 20 - 1) := by decide

theorem test_hyp_GasresRule : sampleB.istate = .ready ∧ sampleB.family = .B ∧ resValid Res.T sampleB = true ∧
    rawValid Raw.G sampleB = true ∧ rawValid Raw.GRANGE sampleB = true ∧ ¬ sampleA.family = .B := by decide

theorem test_hyp_HeatresRule : sampleB.istate = .ready ∧ sampleB.family = .B ∧ resValid Res.T sampleB = true ∧
    ¬ resValid Res.T { sampleB with resV := 1 } = true := by decide

/-- Also the durations around the loop's bound and below the sentinel. -/
theorem test_hyp_HeatdurRule : sampleB.istate = .ready ∧ sampleB.family = .B ∧ ¬ sampleU.family = .B ∧
    (251#20).toNat < 252 ∧ Formulas.heatdur (251#20).toNat = 62 + 64 * 1 ∧
    Formulas.heatdur (63#20).toNat = 63 + 64 * 0 ∧ 63 < 64 := by decide

theorem test_hyp_UviRule : sampleU.istate = .ready ∧ sampleU.family = .U ∧ rawValid Raw.UVA sampleU = true ∧
    rawValid Raw.UVB sampleU = true ∧ rawValid Raw.UVC1 sampleU = true ∧ rawValid Raw.UVC2 sampleU = true ∧
    rawValid Raw.UVD sampleU = true ∧ ¬ rawValid Raw.UVD { sampleU with rawV := 0x1E0 } = true := by decide

/-- P1 = 0 in each family, RSE and RHR with a zero denominator (RHR = -4; RSE = -268 and RAW_G = 512), and the commands
complete; the second divisor of HEATRES is zero for no RHV of a byte, but for the register value below. -/
theorem test_hyp_ZeroDenominatorGivesZero :
    (∃ t, exec .compp { sampleA with cal := Vector.replicate 26 0 } = .next t ∧ answersOk t) ∧
    Formulas.pressADen (Formulas.resS sampleA Res.TFINE) 0 0 0 = 0 ∧
    (∃ t, exec .compp { sampleB with cal := Vector.replicate 26 0 } = .next t ∧ answersOk t) ∧
    Formulas.pressBDen (Formulas.resS sampleB Res.TFINE) 0 0 0 = 0 ∧
    Formulas.calS { sampleA with cal := Vector.replicate 26 0 } Cal.P1 = 0 ∧
    (∃ t, exec .gasres { sampleB with cal := sampleB.cal.set 25 (-268), raw := sampleB.raw.set 3 512 } = .next t ∧
      answersOk t) ∧ Formulas.gasDen 512 4 (-268) = 0 ∧
    (∃ t, exec (.heatres 320) { sampleB with cal := sampleB.cal.set 23 (-4) } = .next t ∧ answersOk t) ∧
    Formulas.w32 (-4 + 4) = 0 ∧ Formulas.w32 (Formulas.w32 (131 * (-1311440896)) + 65536) = 0 :=
  ⟨⟨_, rfl, _, rfl⟩, by decide, ⟨_, rfl, _, rfl⟩, by decide, by decide, ⟨_, rfl, _, rfl⟩, by decide, ⟨_, rfl, _, rfl⟩,
    by decide, by decide⟩

theorem test_hyp_HumidityIsClamped : (∃ t, exec .comph sampleA = .next t ∧ answersOk t) ∧ sampleA.family = .A ∧
    (∃ t, exec .comph sampleB = .next t ∧ answersOk t) ∧ sampleB.family = .B :=
  ⟨⟨_, rfl, _, rfl⟩, rfl, ⟨_, rfl, _, rfl⟩, rfl⟩

theorem test_hyp_UvIndexIsExact : (∀ k : Fin 10, 0 ≤ Formulas.rawS sampleU k ∧ Formulas.rawS sampleU k ≤ 2 ^ 20 - 1) ∧
    (∃ t, exec (.uvi false) sampleU = .next t ∧ answersOk t) ∧ ∃ t, exec (.uvi true) sampleU = .next t ∧ answersOk t :=
  ⟨by decide, ⟨_, rfl, _, rfl⟩, ⟨_, rfl, _, rfl⟩⟩

theorem test_hyp_HeaterTargetIsClamped : 400 < (401#20).toNat ∧ (∃ t, exec (.heatres 401) sampleB = .next t ∧ answersOk t) ∧
    ∃ u, exec (.heatres 400) sampleB = .next u := ⟨by decide, ⟨_, rfl, _, rfl⟩, _, rfl⟩

theorem test_hyp_RepeatedCompensationChangesNothing : isCompensation .comph = true ∧
    ∃ t, exec .comph sampleA = .next t ∧ answersOk t := ⟨rfl, _, rfl, _, rfl⟩

/-- Two different states with the same inputs of COMPT. -/
theorem test_hyp_ResultsDependOnlyOnInputs : isCompensation .compt = true ∧
    sameInputs .compt sampleA { sampleA with resV := 0, res := Vector.replicate 11 9, slp := 1 } ∧
    (∃ t, exec .compt sampleA = .next t ∧ answersOk t) ∧
    ∃ t, exec .compt { sampleA with resV := 0, res := Vector.replicate 11 9, slp := 1 } = .next t ∧ answersOk t :=
  ⟨rfl, by unfold sameInputs; decide, ⟨_, rfl, _, rfl⟩, ⟨_, rfl, _, rfl⟩⟩

/-- A Ready state with a calibration set, a sample and a temperature, about to run COMPP. -/
theorem test_hyp_StepKeepsInvariant : Inv (issued [0x84000000] sampleA) ∧
    ∃ t, step (issued [0x84000000] sampleA) = .next t := by
  refine ⟨?_, _, rfl⟩
  constructor <;> decide

/-- Two different states that no command can tell apart. -/
theorem test_hyp_InvalidContentsAreUnobservable : CalComplete sampleA ∧
    SameVisible sampleA { sampleA with raw := sampleA.raw.set 9 7, res := sampleA.res.set 10 7 } ∧
    sampleA ≠ { sampleA with raw := sampleA.raw.set 9 7, res := sampleA.res.set 10 7 } := by
  refine ⟨by unfold CalComplete; decide, ?_, by decide⟩
  constructor <;> decide

theorem test_hyp_CalibrationIsImmutableInReady : (issued [0x0C000000] sampleA).istate = .ready ∧
    (issued [0x0C000000] sampleA).cmds.head? ≠ some 0x04000000 ∧
    ∃ t, step (issued [0x0C000000] sampleA) = .next t := ⟨by decide, by decide, _, rfl⟩

/-- The three moves of R30. -/
theorem test_hyp_IstateMoves :
    after (fun t => t.istate) (step (issued [0x08000001] State.reset)) = some .fetching ∧
    after (fun t => t.istate) (step (issued [0x0C000000] (image .U .fetching))) = some .ready ∧
    after (fun t => t.istate) (step (issued [0x04000000] sampleA)) = some .uninitialized := by decide

theorem test_hyp_RawSampleIsStableInACycle : rawValid 2 (issued [0x88000000] sampleA) = true ∧
    (issued [0x88000000] sampleA).cmds.head? ≠ some 0x14000000 ∧
    (issued [0x88000000] sampleA).cmds.head? ≠ some 0x04000000 ∧
    ∃ t, step (issued [0x88000000] sampleA) = .next t := ⟨by decide, by decide, by decide, _, rfl⟩

end Sys2Proof.Tests
end

section
/-! PROOFS. Scope (00_scope.md): every command word is answered once (R16). -/

namespace Sys2Proof.Machine

/-- `RD reg` is its opcode with the register number in the seven low bits (R73). -/
theorem toNat_rdWord (n : BitVec 7) : ((0x18000000 : Word) ||| n.setWidth 32).toNat = 0x18000000 + n.toNat := by
  have hn : n.toNat < 2 ^ 7 := n.isLt
  have hw : (n.setWidth 32).toNat = n.toNat := by simp; omega
  rw [BitVec.toNat_or, hw]
  exact (Nat.two_pow_add_eq_or_of_lt hn 0x300000).symm

/-- RD of the always readable registers 61..68 as a range of words (R34 to R36, R205). -/
theorem rdSystemWord_iff (w : Word) : (0x1800003D ≤ w.toNat ∧ w.toNat ≤ 0x18000044) ↔
    ∃ n : BitVec 7, 61 ≤ n.toNat ∧ n.toNat ≤ 68 ∧ w = 0x18000000 ||| n.setWidth 32 := by
  constructor
  · rintro ⟨hlo, hhi⟩
    have hn : (BitVec.ofNat 7 (w.toNat - 0x18000000)).toNat = w.toNat - 0x18000000 := by
      rw [BitVec.toNat_ofNat]; omega
    refine ⟨BitVec.ofNat 7 (w.toNat - 0x18000000), by omega, by omega, BitVec.eq_of_toNat_eq ?_⟩
    rw [toNat_rdWord]; omega
  · rintro ⟨n, hlo, hhi, rfl⟩
    rw [toNat_rdWord]; omega

/-- R205: the words the engine executes while FAULT = 1 are RESET, ERRCLR and RD of 61..68. -/
theorem latchAccepts_iff (w : Word) : latchAccepts w = true ↔
    w = 0x04000000 ∨ w = 0x10000000 ∨
      ∃ n : BitVec 7, 61 ≤ n.toNat ∧ n.toNat ≤ 68 ∧ w = 0x18000000 ||| n.setWidth 32 := by
  rw [← rdSystemWord_iff]
  simp [latchAccepts, or_assoc]

/-- No command stops the machine: a fault is a next state too (R204). -/
theorem exec_next (i : Instr) (s : State) : ∃ t, exec i s = .next t := by
  obtain ⟨r, hr, -, -⟩ := exec_complete i s
  cases r with
  | ok t => exact ⟨t, hr⟩
  | error e => exact ⟨raise e (encode i) s, hr⟩

/-- No step stops the machine. -/
theorem step_next (s : State) : ∃ t, step s = .next t := by
  unfold step
  split
  · exact ⟨s, rfl⟩
  · next w u _ =>
    split
    · exact ⟨ignore u, rfl⟩
    · split
      · exact ⟨raise .illegal w u, rfl⟩
      · next i _ => exact exec_next i u

/-- A command run by its own rule answers a fault, or `ok` with a datum other than 0 only from RD, and takes no further
word from the port (R16, R28). -/
theorem exec_answers {i : Instr} {s t : State} (h : exec i s = .next t) :
    t.cmds = s.cmds ∧ ((∃ e, t.resp = some (.fault e)) ∨
      ∃ d, t.resp = some (.ok d) ∧ (d ≠ 0 → ∃ n, i = .rd n)) := by
  rcases exec_cases h with ⟨e, -, rfl⟩ | hc
  · exact ⟨rfl, .inl ⟨e, rfl⟩⟩
  · exact ⟨hc.answers.1, .inr hc.answers.2⟩

end Sys2Proof.Machine

namespace Sys2Proof.Proofs

open Sys2Proof.Machine

/-- Settles O11, by the outcomes of a step with a word waiting: ignored, E_ILLEGAL, or the decoded command's own rule,
which faults or completes. -/
theorem oneResponsePerCommand : Obligations.OneResponsePerCommand := by
  intro s w rest hcmds
  obtain ⟨t, ht⟩ := step_next s
  rcases step_cases ht with ⟨hnil, -⟩ | ⟨w', rest', hcons, hstep⟩
  · cases hcmds.symm.trans hnil
  obtain ⟨rfl, rfl⟩ := List.cons.inj (hcmds.symm.trans hcons)
  rcases hstep with ⟨hfault, hlatch, rfl⟩ | ⟨-, ⟨_, -, rfl⟩ | ⟨i, hi, hexec⟩⟩
  · have hother : ¬ latchAccepts w = true := by simp [hlatch]
    rw [latchAccepts_iff, not_or, not_or] at hother
    obtain ⟨hreset, herrclr, hrd⟩ := hother
    exact ⟨_, .ignored, ht, rfl, rfl, nofun,
      fun _ => ⟨hfault, hreset, herrclr, fun n hlo hhi hw => hrd ⟨n, hlo, hhi, hw⟩⟩⟩
  · exact ⟨_, .fault .illegal, ht, rfl, rfl, nofun, nofun⟩
  · obtain ⟨hport, ⟨e, hresp⟩ | ⟨d, hresp, hdatum⟩⟩ := exec_answers hexec
    · exact ⟨t, .fault e, ht, hport, hresp, nofun, nofun⟩
    · refine ⟨t, .ok d, ht, hport, hresp, ?_, nofun⟩
      rintro _ ⟨⟩ hd
      obtain ⟨n, rfl⟩ := hdatum hd
      exact ⟨n, hi⟩

end Sys2Proof.Proofs
end


section
/-! PROOFS. State (10_state.md): the always readable registers (R34 to R36) and the reset values (R39). -/

namespace Sys2Proof.Machine

/-! ### RD of a system register -/

/-- Every number 61..68 names an always readable register (R21). -/
theorem exists_sysRegOf {n : Nat} (hlo : 61 ≤ n) (hhi : n ≤ 68) : ∃ r, sysRegOf n = some r := by
  interval_cases n <;> exact ⟨_, rfl⟩

/-- No number below 61 names an always readable register (R21). -/
theorem le_of_sysRegOf {n : Nat} {r : SysReg} (h : sysRegOf n = some r) : 61 ≤ n := by
  unfold sysRegOf at h
  split_ifs at h <;> omega

/-- An always readable register is selected by its number (R73). -/
theorem regSelOf_of_sysRegOf {n : BitVec 7} {r : SysReg} (h : sysRegOf n.toNat = some r) :
    regSelOf n = some (.sys r) := by
  have hn := le_of_sysRegOf h
  unfold regSelOf
  rw [dif_neg (by omega), dif_neg (by omega), dif_neg (by omega), if_neg (by omega), h]
  rfl

/-- RD of an always readable register answers its view, whatever the state (R106). -/
theorem exec_rd_sys {n : BitVec 7} {r : SysReg} (h : sysRegOf n.toNat = some r) (s : State) :
    exec (.rd n) s = .next (respond (sysValue r s) s) := by
  have hexec : exec (.rd n) s = execRd n s := rfl
  rw [hexec, execRd, regSelOf_of_sysRegOf h]
  rfl

/-! ### The views -/

/-- STATUS as the sum of its fields at their places (R34). -/
theorem toNat_statusWord (s : State) : (statusWord s).toNat =
    s.istate.code.toNat + 4 * s.family.code.toNat + 16 * s.fault.toNat
      + 32 * (resValid Res.TFINE s).toNat + 64 * s.slpV.toNat := by
  simp only [statusWord, toNat_append_eq, toNat_ofBool, BitVec.toNat_zero]
  omega

/-- ERR is the 8-bit code with zeros above (R35). -/
theorem toNat_sysValue_err (s : State) : (sysValue .err s).toNat = s.err.code.toNat :=
  BitVec.toNat_setWidth_of_le (by decide)

/-- A map that is narrower than the register has its bits in their places and zeros above (R36). -/
theorem getLsbD_setWidth_of_le {m n : Nat} (v : BitVec m) (h : m ≤ n) (k : Nat) :
    (v.setWidth n).getLsbD k = (decide (k < m) && v.getLsbD k) := by
  rw [BitVec.getLsbD_setWidth]
  by_cases hk : k < m
  · simp [hk, Nat.lt_of_lt_of_le hk h]
  · simp [hk, BitVec.getLsbD_of_ge v k (Nat.le_of_not_lt hk)]

/-! ### The reset state -/

/-- With no cell listed the BUFV maps are 0 (R36, R51). -/
theorem bufMap_nil (base n : Nat) : bufMap [] base n = 0 := by
  induction n with
  | zero => rfl
  | succ n ih => rw [bufMap, Memory.valid_nil, if_neg Bool.false_ne_true, ih]

theorem calValid_reset (i : Fin 26) : calValid i State.reset = false := BitVec.getLsbD_zero

theorem rawValid_reset (k : Fin 10) : rawValid k State.reset = false := BitVec.getLsbD_zero

theorem resValid_reset (k : Fin 11) : resValid k State.reset = false := BitVec.getLsbD_zero

theorem statusWord_reset : statusWord State.reset = 0 := by
  apply BitVec.eq_of_toNat_eq
  rw [toNat_statusWord, resValid_reset]
  rfl

/-- Every always readable register is 0 in the reset state (R39). -/
theorem sysValue_reset (r : SysReg) : sysValue r State.reset = 0 := by
  cases r with
  | status => exact statusWord_reset
  | bufvLo => exact bufMap_nil 0 32
  | bufvHi => exact bufMap_nil 32 32
  | err | ecmd | calpop | rawv | resv => rfl

end Sys2Proof.Machine

namespace Sys2Proof.Proofs

open Sys2Proof.Machine

/-- Settles O24: RD of 61..68 answers the view of the register with that number, and each view has the bits its rule
gives it. -/
theorem rdSystemRule : Obligations.RdSystemRule := by
  intro n s hlo hhi
  obtain ⟨r, hr⟩ := exists_sysRegOf hlo hhi
  have named {m : Nat} {q : SysReg} (hq : sysRegOf m = some q) (hm : n.toNat = m) : r = q :=
    Option.some.inj (hr.symm.trans (hm ▸ hq))
  refine ⟨sysValue r s, exec_rd_sys hr s, fun hn => ?status, fun hn => ?err, fun hn => ?ecmd, fun hn => ?calpop,
    fun hn => ?rawv, fun hn => ?resv, fun hn => ?bufvLo, fun hn => ?bufvHi⟩
  case status => obtain rfl := named (q := .status) rfl hn; exact toNat_statusWord s
  case err => obtain rfl := named (q := .err) rfl hn; exact toNat_sysValue_err s
  case ecmd => obtain rfl := named (q := .ecmd) rfl hn; rfl
  case calpop => obtain rfl := named (q := .calpop) rfl hn; exact getLsbD_setWidth_of_le s.calV (by decide)
  case rawv => obtain rfl := named (q := .rawv) rfl hn; exact getLsbD_setWidth_of_le s.rawV (by decide)
  case resv => obtain rfl := named (q := .resv) rfl hn; exact getLsbD_setWidth_of_le s.resV (by decide)
  case bufvLo =>
    obtain rfl := named (q := .bufvLo) rfl hn
    intro k
    simpa [sysValue] using getLsbD_bufMap s.buf 0 32 k le_rfl
  case bufvHi =>
    obtain rfl := named (q := .bufvHi) rfl hn
    exact fun k => getLsbD_bufMap s.buf 32 32 k le_rfl

/-- Settles O17, field by field: no valid bit is set and no cell is listed, so every view is 0. -/
theorem resetValues : Obligations.ResetValues :=
  ⟨reset_istate, reset_family, reset_fault, reset_err, reset_ecmd, reset_slpV, calValid_reset, rawValid_reset,
    resValid_reset, Memory.valid_nil, sysValue_reset⟩

end Sys2Proof.Proofs
end


section
/-! PROOFS. Encoding (30_encoding.md): the rows of the opcode map as command formats, and the decoder by rows. -/

namespace Sys2Proof.Safety

open Sys2Proof.Machine

/-! ### Masks as fields -/

/-- The mask whose ones are `w[lo+n-1 : lo]`, for the field z = (lo, n). -/
def fieldMask (z : Nat × Nat) : Nat := (2 ^ z.2 - 1) <<< z.1

theorem and_fieldMask (w : Word) (z : Nat × Nat) :
    w.toNat &&& fieldMask z = (bits w z.1 z.2).toNat * 2 ^ z.1 := by
  rw [toNat_bits, ← Nat.shiftRight_eq_div_pow, ← Nat.and_two_pow_sub_one_eq_mod, ← Nat.shiftLeft_eq, fieldMask]
  refine Nat.eq_of_testBit_eq fun k => ?_
  by_cases hk : z.1 ≤ k <;> simp [hk, Bool.and_comm]

theorem and_fieldMask_eq_zero_iff (w : Word) (z : Nat × Nat) :
    w.toNat &&& fieldMask z = 0 ↔ bits w z.1 z.2 = 0 := by
  rw [and_fieldMask, ← BitVec.toNat_inj]
  simp

theorem and_opcodeMask_eq_iff (w : Word) (op : Nat) :
    w.toNat &&& fieldMask (26, 6) = op * 2 ^ 26 ↔ opcodeOf w = op := by
  rw [and_fieldMask]
  exact Nat.mul_left_inj (by decide)

/-- A test of more bits, against a pattern that is zero there, is the two tests. -/
theorem and_or_eq_iff {v m n p : Nat} (h : p &&& m = 0) : v &&& (m ||| n) = p ↔ v &&& m = 0 ∧ v &&& n = p := by
  rw [Nat.and_or_distrib_left]
  constructor
  · intro hp
    have hzero : v &&& m = 0 := by
      calc v &&& m = ((v &&& m) ||| (v &&& n)) &&& m := by
            refine Nat.eq_of_testBit_eq fun k => ?_
            simp only [Nat.testBit_and, Nat.testBit_or]
            cases v.testBit k <;> cases m.testBit k <;> simp
        _ = 0 := by rw [hp, h]
    exact ⟨hzero, by simpa [hzero] using hp⟩
  · rintro ⟨hm, hn⟩
    simp [hm, hn]

/-! ### Extra conditions -/

/-- R8's slice of the word is the decoder's field. -/
theorem slice_eq_bits (w : Word) (hi lo : Nat) : slice w.toNat hi lo = (bits w lo (hi + 1 - lo)).toNat :=
  (toNat_bits w lo (hi + 1 - lo)).symm

/-- R80's `dest` condition on the word is the one on the fields of the command. -/
theorem destExtra_eq_destLegal (w : Word) : destExtra w.toNat = destLegal (bits w 20 6) (bit w 19) := by
  have hsign : (slice w.toNat 19 19 == 0) = !bit w 19 := by
    have hbit := toNat_bit w 19
    rw [show slice w.toNat 19 19 = (bit w 19).toNat from hbit.symm]
    cases bit w 19 <;> rfl
  have hdst : slice w.toNat 25 20 = (bits w 20 6).toNat := slice_eq_bits w 25 20
  simp only [destExtra, destLegal, hsign, hdst]

/-- The decoder's last test lets a command through exactly when it holds. -/
theorem ite_ok_error_eq_ok_iff {p : Prop} [Decidable p] {e : Illegal} {i j : Instr} :
    (if p then .ok j else .error e : Except Illegal Instr) = .ok i ↔ p ∧ j = i := by
  split <;> simp [*]

theorem ite_error_ok_eq_ok_iff {p : Prop} [Decidable p] {e : Illegal} {i j : Instr} :
    (if p then .error e else .ok j : Except Illegal Instr) = .ok i ↔ ¬ p ∧ j = i := by
  rw [← ite_not, ite_ok_error_eq_ok_iff]

/-! ### Formats -/

/-- What R71 to R78 say of one row: its opcode, its must-be-zero fields as (lowest bit, width), and the command with the
operands of R81. -/
structure Format where
  opcode : Nat
  zeros : List (Nat × Nat)
  command : Word → Instr

namespace Format

/-- Every must-be-zero field of the format is zero in w (R79). -/
def ZerosHold (f : Format) (w : Word) : Prop := ∀ z ∈ f.zeros, bits w z.1 z.2 = 0

/-- The bits that the format fixes: the opcode and the must-be-zero fields. -/
def mask (f : Format) : Nat := f.zeros.foldr (fun z m => fieldMask z ||| m) (fieldMask (26, 6))

/-- The opcode in its place, zeros elsewhere. -/
def pattern (f : Format) : Nat := f.opcode * 2 ^ 26

/-- The test by mask and pattern is the test of the opcode and of the must-be-zero fields. -/
theorem and_mask_eq_iff {f : Format} (hz : ∀ z ∈ f.zeros, f.pattern &&& fieldMask z = 0) (w : Word) :
    w.toNat &&& f.mask = f.pattern ↔ opcodeOf w = f.opcode ∧ f.ZerosHold w := by
  obtain ⟨op, zs, c⟩ := f
  simp only [mask, pattern, ZerosHold] at hz ⊢
  induction zs with
  | nil => simpa using and_opcodeMask_eq_iff w op
  | cons z zs ih =>
    obtain ⟨hz, hzs⟩ := List.forall_mem_cons.1 hz
    rw [List.foldr_cons, and_or_eq_iff hz, ih hzs, and_fieldMask_eq_zero_iff, List.forall_mem_cons]
    exact and_left_comm

/-- The mask and the pattern of the row are those of the format. -/
def HasBits (f : Format) (r : Row) : Prop :=
  f.mask = r.mask ∧ f.pattern = r.pattern ∧ ∀ z ∈ f.zeros, f.pattern &&& fieldMask z = 0

/-- The row's extra condition is that the command is legal, and the decoder reads words with the format's opcode by the
format. -/
structure Describes (f : Format) (r : Row) : Prop where
  extra : ∀ w, f.ZerosHold w → r.extra w.toNat = (f.command w).wf
  reads : ∀ w i, opcodeOf w = f.opcode →
    (decode w = .ok i ↔ f.ZerosHold w ∧ (f.command w).wf = true ∧ f.command w = i)

variable {f : Format} {r : Row}

theorem accepts_iff (hb : f.HasBits r) (hd : f.Describes r) (w : Word) :
    r.accepts w = true ↔ opcodeOf w = f.opcode ∧ f.ZerosHold w ∧ (f.command w).wf = true := by
  obtain ⟨hmask, hpattern, hzeros⟩ := hb
  rw [Row.accepts, Bool.and_eq_true, beq_iff_eq, ← hmask, ← hpattern, and_mask_eq_iff hzeros, and_assoc]
  exact and_congr_right fun _ => and_congr_right fun h => by rw [hd.extra w h]

/-- Among the words with the row's opcode, the decoder reads those the row accepts. -/
theorem decode_eq_ok_iff (hb : f.HasBits r) (hd : f.Describes r) {w : Word} (hop : opcodeOf w = f.opcode) (i : Instr) :
    decode w = .ok i ↔ r.accepts w = true ∧ f.command w = i := by
  rw [hd.reads w i hop, accepts_iff hb hd]
  simp [hop, and_assoc]

/-- The must-be-zero tests of the format, in its order, and then `rest`. -/
def whenZeros (f : Format) (w : Word) (rest : Except Illegal Instr) : Except Illegal Instr :=
  f.zeros.foldr (fun z r => whenZero w z.1 z.2 r) rest

theorem whenZeros_ok {w : Word} {rest : Except Illegal Instr} {i : Instr} :
    f.whenZeros w rest = .ok i ↔ f.ZerosHold w ∧ rest = .ok i := by
  obtain ⟨op, zs, c⟩ := f
  simp only [whenZeros, ZerosHold]
  induction zs with
  | nil => simp
  | cons z zs ih => rw [List.foldr_cons, whenZero_ok, ih, List.forall_mem_cons, and_assoc]

/-- A row with no extra condition. -/
theorem Describes.of_any (harm : ∀ w, opcodeOf w = f.opcode → decode w = f.whenZeros w (.ok (f.command w)))
    (hwf : ∀ w, (f.command w).wf = true) (hextra : ∀ v, r.extra v = true) : f.Describes r :=
  { extra := fun w _ => (hextra w.toNat).trans (hwf w).symm
    reads := fun w i hop => by simp [harm w hop, whenZeros_ok, hwf w] }

/-- A row whose extra condition is R80's `dest`. -/
theorem Describes.of_dest
    (harm : ∀ w, opcodeOf w = f.opcode → decode w = f.whenZeros w (whenDest w (.ok (f.command w))))
    (hwf : ∀ w, f.ZerosHold w → (f.command w).wf = destLegal (bits w 20 6) (bit w 19))
    (hextra : r.extra = destExtra) : f.Describes r :=
  { extra := fun w h => by rw [hextra, hwf w h, destExtra_eq_destLegal]
    reads := fun w i hop => by
      rw [harm w hop, whenZeros_ok, whenDest_ok, Except.ok.injEq]
      exact and_congr_right fun h => by rw [hwf w h] }

end Format

/-! ### The 24 formats -/

/-- Format N (R71). -/
def formatN (op : Nat) (i : Instr) : Format := ⟨op, [(0, 26)], fun _ => i⟩

/-- Format I (R74). -/
def formatI (op : Nat) (c : BitVec 20 → Instr) : Format := ⟨op, [(20, 6)], fun w => c (bits w 0 20)⟩

/-- Format D with one offset (R76, R80). -/
def formatD (op : Nat) (c : BitVec 6 → Bool → BitVec 6 → Instr) : Format :=
  ⟨op, [(12, 7), (0, 6)], fun w => c (bits w 20 6) (bit w 19) (bits w 6 6)⟩

/-- Format D with two offsets (R76, R80). -/
def formatD2 (op : Nat) (c : BitVec 6 → Bool → BitVec 6 → BitVec 6 → Instr) : Format :=
  ⟨op, [(12, 7)], fun w => c (bits w 20 6) (bit w 19) (bits w 6 6) (bits w 0 6)⟩

def formatCalbegin : Format := ⟨0x02, [(2, 24)], fun w => .calbegin (bits w 0 2)⟩

def formatRd : Format := ⟨0x06, [(7, 19)], fun w => .rd (bits w 0 7)⟩

def formatLdb : Format := ⟨0x08, [(14, 12)], fun w => .ldb (bits w 8 6) (bits w 0 8)⟩

def formatDec20 : Format := ⟨0x15, [(12, 8), (0, 6)], fun w => .dec20 (bits w 20 6) (bits w 6 6)⟩

def formatDecbf : Format :=
  ⟨0x16, [(12, 1), (0, 6)], fun w => .decbf (bits w 20 6) (bit w 19) (bits w 16 3) (bits w 13 3) (bits w 6 6)⟩

def formatDecgas : Format := ⟨0x17, [(12, 14), (0, 6)], fun w => .decgas (bits w 6 6)⟩

def formatUvi : Format := ⟨0x27, [(1, 25)], fun w => .uvi (bit w 0)⟩

/-- The formats of the rows of R78, in its order. -/
def formats : List Format :=
  [formatN 0x01 .reset, formatCalbegin, formatN 0x03 .calcommit, formatN 0x04 .errclr, formatN 0x05 .cycle,
   formatRd, formatI 0x07 .setslp, formatLdb,
   formatD 0x10 .dec8, formatD 0x11 .dec16le, formatD 0x12 .dec16be, formatD2 0x13 .dec12hl, formatD2 0x14 .dec12ms,
   formatDec20, formatDecbf, formatDecgas,
   formatN 0x20 .compt, formatN 0x21 .compp, formatN 0x22 .comph, formatN 0x23 .alt, formatN 0x24 .gasres,
   formatI 0x25 .heatres, formatI 0x26 .heatdur, formatUvi]

/-- The format of a row. -/
def formatOf (k : Fin rows.length) : Format := formats[k.val]'k.isLt

theorem formatOf_hasBits (k : Fin rows.length) : (formatOf k).HasBits rows[k] := by
  revert k
  unfold Format.HasBits
  decide

theorem rowOf_command (k : Fin rows.length) (w : Word) : rowOf ((formatOf k).command w) = k.val := by
  fin_cases k <;> rfl

/-! ### Each format describes its row -/

/-- R72: `fam = 3` is reserved. -/
theorem formatCalbegin_describes {p m : Nat} : formatCalbegin.Describes ⟨p, m, fun v => slice v 1 0 ≠ 3⟩ where
  extra w _ := by
    have hfam : slice w.toNat 1 0 = (bits w 0 2).toNat := slice_eq_bits w 1 0
    simp [formatCalbegin, Instr.wf, hfam]
  reads w i hop := by
    have hfam : (formatCalbegin.command w).wf = true ↔ ¬ bits w 0 2 = 3#2 := by
      rw [← BitVec.toNat_inj]
      exact decide_eq_true_iff
    have hzeros : formatCalbegin.ZerosHold w ↔ bits w 2 24 = 0 := List.forall_mem_singleton
    rw [hzeros, hfam]
    simp only [decode, hop, whenZero_ok, ite_error_ok_eq_ok_iff, formatCalbegin]

/-- R73: the register number is readable. -/
theorem formatRd_describes {p m : Nat} : formatRd.Describes ⟨p, m, fun v =>
    let n := slice v 6 0
    n ≤ 25 || (32 ≤ n && n ≤ 41) || (48 ≤ n && n ≤ 58) || (60 ≤ n && n ≤ 68)⟩ where
  extra w _ := by
    have hreg : slice w.toNat 6 0 = (bits w 0 7).toNat := slice_eq_bits w 6 0
    simp only [formatRd, Instr.wf, rselReadable, hreg]
  reads w i hop := by
    have hzeros : formatRd.ZerosHold w ↔ bits w 7 19 = 0 := List.forall_mem_singleton
    rw [hzeros]
    simp only [decode, hop, whenZero_ok, ite_ok_error_eq_ok_iff, formatRd, Instr.wf, rselReadable,
      Bool.or_eq_true, Bool.and_eq_true, decide_eq_true_eq, Nat.lt_succ_iff, or_assoc]

/-- R80: DEC20 has no signed form, its `s` being one of the must-be-zero bits. -/
theorem formatDec20_describes {p m : Nat} : formatDec20.Describes ⟨p, m, destExtra⟩ := by
  refine .of_dest (fun w hop => ?arm) (fun w hzero => ?wf) rfl
  case arm => simp only [decode, hop]; rfl
  case wf =>
    have hfield : bits w 12 8 = 0 := hzero (12, 8) (by simp [formatDec20])
    have hsign : bit w 19 = (bits w 12 8).getLsbD 7 := by simp [bit, bits]
    rw [hsign, hfield]
    rfl

/-- R80: DECBF's field ends at bit 7 of the byte or below. -/
theorem formatDecbf_describes {p m : Nat} :
    formatDecbf.Describes ⟨p, m, fun v => destExtra v && slice v 18 16 + slice v 15 13 + 1 ≤ 8⟩ where
  extra w _ := by
    have hlsb : slice w.toNat 18 16 = (bits w 16 3).toNat := slice_eq_bits w 18 16
    have hwidth : slice w.toNat 15 13 = (bits w 13 3).toNat := slice_eq_bits w 15 13
    simp only [formatDecbf, Instr.wf, destExtra_eq_destLegal, hlsb, hwidth]
  reads w i hop := by
    have hzeros : formatDecbf.ZerosHold w ↔ bits w 12 1 = 0 ∧ bits w 0 6 = 0 := by
      simp [Format.ZerosHold, formatDecbf]
    rw [hzeros]
    simp only [decode, hop, whenZero_ok, whenDest_ok, ite_ok_error_eq_ok_iff, formatDecbf, Instr.wf,
      Bool.and_eq_true, decide_eq_true_eq, and_assoc]

section Shared

variable {op p m : Nat}

theorem formatN_describes {i : Instr} (harm : ∀ w, opcodeOf w = op → decode w = whenZero w 0 26 (.ok i))
    (hwf : i.wf = true) : (formatN op i).Describes ⟨p, m, fun _ => true⟩ :=
  .of_any harm (fun _ => hwf) fun _ => rfl

theorem formatI_describes {c : BitVec 20 → Instr}
    (harm : ∀ w, opcodeOf w = op → decode w = whenZero w 20 6 (.ok (c (bits w 0 20))))
    (hwf : ∀ imm, (c imm).wf = true) : (formatI op c).Describes ⟨p, m, fun _ => true⟩ :=
  .of_any harm (fun _ => hwf _) fun _ => rfl

theorem formatD_describes {c : BitVec 6 → Bool → BitVec 6 → Instr}
    (harm : ∀ w, opcodeOf w = op → decode w = (whenZero w 12 7 <| whenZero w 0 6 <| whenDest w <|
      .ok (c (bits w 20 6) (bit w 19) (bits w 6 6))))
    (hwf : ∀ dst s a, (c dst s a).wf = destLegal dst s) : (formatD op c).Describes ⟨p, m, destExtra⟩ :=
  .of_dest harm (fun _ _ => hwf _ _ _) rfl

theorem formatD2_describes {c : BitVec 6 → Bool → BitVec 6 → BitVec 6 → Instr}
    (harm : ∀ w, opcodeOf w = op → decode w = (whenZero w 12 7 <| whenDest w <|
      .ok (c (bits w 20 6) (bit w 19) (bits w 6 6) (bits w 0 6))))
    (hwf : ∀ dst s a b, (c dst s a b).wf = destLegal dst s) : (formatD2 op c).Describes ⟨p, m, destExtra⟩ :=
  .of_dest harm (fun _ _ => hwf _ _ _ _) rfl

theorem formatLdb_describes : formatLdb.Describes ⟨p, m, fun _ => true⟩ :=
  .of_any (fun w hop => by simp only [decode, hop]; rfl) (fun _ => rfl) fun _ => rfl

theorem formatDecgas_describes : formatDecgas.Describes ⟨p, m, fun _ => true⟩ :=
  .of_any (fun w hop => by simp only [decode, hop]; rfl) (fun _ => rfl) fun _ => rfl

theorem formatUvi_describes : formatUvi.Describes ⟨p, m, fun _ => true⟩ :=
  .of_any (fun w hop => by simp only [decode, hop]; rfl) (fun _ => rfl) fun _ => rfl

end Shared

/-- Row by row, the opcode map, the formats and the arms of the decoder agree (R78). -/
theorem formats_describe_rows : List.Forall₂ Format.Describes formats rows := by
  refine
    .cons (formatN_describes ?_ rfl) <| .cons formatCalbegin_describes <|
    .cons (formatN_describes ?_ rfl) <| .cons (formatN_describes ?_ rfl) <| .cons (formatN_describes ?_ rfl) <|
    .cons formatRd_describes <| .cons (formatI_describes ?_ fun _ => rfl) <| .cons formatLdb_describes <|
    .cons (formatD_describes ?_ fun _ _ _ => rfl) <| .cons (formatD_describes ?_ fun _ _ _ => rfl) <|
    .cons (formatD_describes ?_ fun _ _ _ => rfl) <| .cons (formatD2_describes ?_ fun _ _ _ _ => rfl) <|
    .cons (formatD2_describes ?_ fun _ _ _ _ => rfl) <|
    .cons formatDec20_describes <| .cons formatDecbf_describes <| .cons formatDecgas_describes <|
    .cons (formatN_describes ?_ rfl) <| .cons (formatN_describes ?_ rfl) <| .cons (formatN_describes ?_ rfl) <|
    .cons (formatN_describes ?_ rfl) <| .cons (formatN_describes ?_ rfl) <|
    .cons (formatI_describes ?_ fun _ => rfl) <| .cons (formatI_describes ?_ fun _ => rfl) <|
    .cons formatUvi_describes .nil
  all_goals
    intro w hop
    simp only [decode, hop]

theorem formatOf_describes (k : Fin rows.length) : (formatOf k).Describes rows[k] :=
  formats_describe_rows.get k.isLt k.isLt

/-! ### The decoder by rows -/

/-- R82: a word whose opcode has no row is illegal. -/
theorem decode_reserved {w : Word} (h : opcodeOf w ∉ formats.map Format.opcode) :
    decode w = .error .reservedOpcode := by
  unfold decode
  split
  case h_25 => rfl
  all_goals exact absurd (by rw [‹opcodeOf w = _›]; decide) h

/-- A word that decodes has the opcode of a row. -/
theorem exists_format_of_decode {w : Word} {i : Instr} (h : decode w = .ok i) :
    ∃ k : Fin rows.length, opcodeOf w = (formatOf k).opcode := by
  have hop : opcodeOf w ∈ formats.map Format.opcode := by
    by_contra hop
    cases h.symm.trans (decode_reserved hop)
  obtain ⟨f, hf, hfop⟩ := List.mem_map.1 hop
  obtain ⟨k, hk, rfl⟩ := List.getElem_of_mem hf
  exact ⟨⟨k, hk⟩, hfop.symm⟩

/-- R78, R83: the decoder reads a word exactly when a row accepts it, and then as that row's command. -/
theorem decode_eq_ok_iff_accepts {w : Word} {i : Instr} :
    decode w = .ok i ↔ ∃ k : Fin rows.length, rows[k].accepts w = true ∧ (formatOf k).command w = i := by
  constructor
  · intro h
    obtain ⟨k, hop⟩ := exists_format_of_decode h
    exact ⟨k, (Format.decode_eq_ok_iff (formatOf_hasBits k) (formatOf_describes k) hop i).1 h⟩
  · rintro ⟨k, hk, hi⟩
    obtain ⟨hop, -⟩ := (Format.accepts_iff (formatOf_hasBits k) (formatOf_describes k) w).1 hk
    exact (Format.decode_eq_ok_iff (formatOf_hasBits k) (formatOf_describes k) hop i).2 ⟨hk, hi⟩

/-- A row accepts a word exactly when it decodes to a command of the row (R78). -/
theorem accepts_iff_decode (w : Word) (k : Fin rows.length) :
    rows[k].accepts w = true ↔ ∃ i, decode w = .ok i ∧ rowOf i = k.val := by
  constructor
  · intro hk
    exact ⟨_, decode_eq_ok_iff_accepts.2 ⟨k, hk, rfl⟩, rowOf_command k w⟩
  · rintro ⟨i, hi, hrow⟩
    obtain ⟨j, hj, rfl⟩ := decode_eq_ok_iff_accepts.1 hi
    rwa [← Fin.ext ((rowOf_command j w).symm.trans hrow)]

/-- A word that no row accepts does not decode (R82). -/
theorem decode_error_of_not_accepts {w : Word} (h : ∀ r ∈ rows, r.accepts w = false) : ∃ e, decode w = .error e := by
  cases hw : decode w with
  | error e => exact ⟨e, rfl⟩
  | ok i =>
    obtain ⟨k, hk, -⟩ := decode_eq_ok_iff_accepts.1 hw
    exact absurd hk (Bool.not_eq_true _ ▸ h _ (List.getElem_mem k.isLt))

/-! ### The words executed under the latch -/

/-- R205: the words the latch lets through are legal. -/
theorem exists_accepts_of_latchAccepts {w : Word} (h : latchAccepts w = true) : ∃ r ∈ rows, r.accepts w = true := by
  rcases (latchAccepts_iff w).1 h with rfl | rfl | ⟨n, hlo, hhi, rfl⟩
  · decide
  · decide
  · refine ⟨rows[5], List.getElem_mem _, ?_⟩
    revert n
    decide

/-- While FAULT = 1 a word that the latch does not let through is ignored (R205). -/
theorem step_latched {s : State} {w : Word} {rest : List Word} (hf : s.fault = true) (hc : s.cmds = w :: rest)
    (hw : latchAccepts w = false) : step s = .next (ignore { s with cmds := rest }) := by
  simp [step, takeCommand_cons hc, latched, hf, hw]

end Sys2Proof.Safety

namespace Sys2Proof.Proofs

open Sys2Proof.Machine Sys2Proof.Safety

/-- Settles O4: each row accepts what decodes to its commands; the decoder answers one command, which has one row. -/
theorem legalWordsAreTheTableRows : Obligations.LegalWordsAreTheTableRows := by
  refine ⟨accepts_iff_decode, fun w j k hj hk => ?_⟩
  obtain ⟨i, hi, hij⟩ := (accepts_iff_decode w j).1 hj
  obtain ⟨i', hi', hik⟩ := (accepts_iff_decode w k).1 hk
  obtain rfl : i = i' := Except.ok.inj (hi.symm.trans hi')
  exact Fin.ext (hij.symm.trans hik)

/-- Settles O7: such a word does not decode, and it is none of those the latch lets through. -/
theorem illegalWordFaults : Obligations.IllegalWordFaults := by
  refine ⟨fun s w rest hcmds hillegal => ⟨fun hfault => ?_, fun hfault => ?_⟩, by decide⟩
  · obtain ⟨e, he⟩ := decode_error_of_not_accepts hillegal
    rw [step_unlatched hfault hcmds, he]
    rfl
  · have hlatch : latchAccepts w = false := by
      by_contra hlatch
      obtain ⟨r, hr, hacc⟩ := exists_accepts_of_latchAccepts (by simpa using hlatch)
      cases hacc.symm.trans (hillegal r hr)
    exact step_latched hfault hcmds hlatch

/-- Settles O1, by running the decoder on the eleven words. -/
theorem decodeReadsWorkedEncodings : Obligations.DecodeReadsWorkedEncodings := by
  unfold Obligations.DecodeReadsWorkedEncodings
  decide

end Sys2Proof.Proofs
end


section
/-! PROOFS. Control commands (40_control.md): their words, their rules as equations, and what `RD`
answers (R100 to R107). -/

namespace Sys2Proof

/-! ### Words with an operand in the low bits -/

/-- A concatenation is its high part over zeros, with the low part put in. -/
theorem append_eq_or_setWidth {m n : Nat} (a : BitVec m) (v : BitVec n) :
    a ++ v = (a ++ 0#n) ||| v.setWidth (m + n) := by
  refine BitVec.eq_of_getLsbD_eq fun i hi => ?_
  rw [BitVec.getLsbD_or, BitVec.getLsbD_append, BitVec.getLsbD_append, BitVec.getLsbD_setWidth]
  by_cases h : i < n
  · simp [h, hi]
  · simp [h, BitVec.getLsbD_of_ge v i (Nat.le_of_not_lt h)]

/-- The word of `CALBEGIN fam` (R101). -/
theorem encode_calbegin (fam : BitVec 2) : encode (.calbegin fam) = 0x08000000 ||| fam.setWidth 32 :=
  append_eq_or_setWidth (0x02#6 ++ 0#24) fam

/-- The word of `RD reg` (R106). -/
theorem encode_rd (n : BitVec 7) : encode (.rd n) = 0x18000000 ||| n.setWidth 32 :=
  append_eq_or_setWidth (0x06#6 ++ 0#19) n

/-- The word of `SETSLP imm` (R107). -/
theorem encode_setslp (imm : BitVec 20) : encode (.setslp imm) = 0x1C000000 ||| imm.setWidth 32 :=
  append_eq_or_setWidth (0x07#6 ++ 0#6) imm

theorem encode_calcommit : encode .calcommit = 0x0C000000 := rfl

theorem encode_cycle : encode .cycle = 0x14000000 := rfl

end Sys2Proof

namespace Sys2Proof.Machine

open Sys2Proof.Safety

/-! ### The rules as equations -/

/-- RESET completes in every state (R100). -/
theorem exec_reset (s : State) : exec .reset s = .next (respond 0 (resetState s)) := rfl

/-- ERRCLR completes in every state (R104). -/
theorem exec_errclr (s : State) : exec .errclr s = .next (respond 0 (clearFault s)) := rfl

/-- `CALBEGIN fam` for a family there is (R101). -/
theorem exec_calbegin {fam : BitVec 2} {f : Family} (hf : familyOf fam = some f) (s : State) :
    exec (.calbegin fam) s = complete (encode (.calbegin fam)) s
      (require (s.istate = .uninitialized) .seq (.ok (respond 0 { s with family := f, istate := .fetching }))) := by
  have hexec : exec (.calbegin fam) s = execCalbegin fam s := rfl
  rw [hexec, execCalbegin, hf]

/-- CALCOMMIT (R102). -/
theorem exec_calcommit (s : State) : exec .calcommit s = complete (encode .calcommit) s
    (require (s.istate = .fetching) .seq
      (require (s.calV = required s.family) .calPartial (.ok (respond 0 { s with istate := .ready })))) := rfl

/-- CYCLE (R105). -/
theorem exec_cycle (s : State) : exec .cycle s = complete (encode .cycle) s
    (require (s.istate = .ready) .notReady (.ok (respond 0 (newCycle s)))) := rfl

/-- `SETSLP imm` (R107). -/
theorem exec_setslp (imm : BitVec 20) (s : State) : exec (.setslp imm) s = complete (encode (.setslp imm)) s
    (require (imm ≠ 0) .domain (.ok (respond 0 { s with slp := imm, slpV := true }))) := rfl

/-- The operand of CALBEGIN is the code of its family (R72). -/
theorem familyOf_code (f : Family) : familyOf f.code = some f := by cases f <;> rfl

theorem rawValid_newCycle (s : State) (k : Fin 10) : rawValid k (newCycle s) = false := BitVec.getLsbD_zero

theorem resValid_newCycle (s : State) (k : Fin 11) : resValid k (newCycle s) = false := BitVec.getLsbD_zero

/-! ### Readable registers -/

/-- The number of an always readable register (R21). -/
def SysReg.number : SysReg → Nat
  | .status => 61
  | .err => 62
  | .ecmd => 63
  | .calpop => 64
  | .rawv => 65
  | .resv => 66
  | .bufvLo => 67
  | .bufvHi => 68

/-- The number of a readable register (R21). -/
def RegSel.number : RegSel → Nat
  | .cal i => i.val
  | .raw k => 32 + k.val
  | .res k => 48 + k.val
  | .slp => 60
  | .sys q => q.number

/-- The valid bit `RD` tests; a system register has none to test (R106). -/
def RegSel.valid (s : State) : RegSel → Bool
  | .cal i => calValid i s
  | .raw k => rawValid k s
  | .res k => resValid k s
  | .slp => s.slpV
  | .sys _ => true

/-- What `RD` answers when its test holds (R106). -/
def RegSel.value (s : State) : RegSel → Word
  | .cal i => s.cal[i]
  | .raw k => s.raw[k]
  | .res k => s.res[k]
  | .slp => s.slp.setWidth 32
  | .sys q => sysValue q s

theorem sysRegOf_number (q : SysReg) : sysRegOf q.number = some q := by cases q <;> rfl

/-- The numbers 61..68 are those of the always readable registers (R21). -/
theorem exists_sysReg_number {n : Nat} (hlo : 61 ≤ n) (hhi : n ≤ 68) : ∃ q : SysReg, n = q.number := by
  interval_cases n
  exacts [⟨.status, rfl⟩, ⟨.err, rfl⟩, ⟨.ecmd, rfl⟩, ⟨.calpop, rfl⟩, ⟨.rawv, rfl⟩, ⟨.resv, rfl⟩, ⟨.bufvLo, rfl⟩,
    ⟨.bufvHi, rfl⟩]

/-- A readable register is selected by its number (R73). -/
theorem regSelOf_of_number {n : BitVec 7} {r : RegSel} (h : n.toNat = r.number) : regSelOf n = some r := by
  cases r with
  | cal i =>
    have hn : n.toNat = i.val := h
    simp [regSelOf, hn]
  | raw k =>
    have hn : n.toNat = 32 + k.val := h
    simp [regSelOf, hn, show ¬ 32 + k.val < 26 by omega, show 32 + k.val < 42 by omega]
  | res k =>
    have hn : n.toNat = 48 + k.val := h
    simp [regSelOf, hn, show ¬ 48 + k.val < 26 by omega, show ¬ 48 + k.val < 42 by omega,
      show 48 + k.val < 59 by omega]
  | slp =>
    have hn : n.toNat = 60 := h
    simp [regSelOf, hn]
  | sys q => exact regSelOf_of_sysRegOf (h ▸ sysRegOf_number q)

/-- Every selector R73 allows is the number of a readable register. -/
theorem exists_number_of_rselReadable {n : BitVec 7} (h : rselReadable n = true) :
    ∃ r : RegSel, n.toNat = r.number := by
  have hn : n.toNat ≤ 25 ∨ (32 ≤ n.toNat ∧ n.toNat ≤ 41) ∨ (48 ≤ n.toNat ∧ n.toNat ≤ 58) ∨
      (60 ≤ n.toNat ∧ n.toNat ≤ 68) := by
    simpa [rselReadable, or_assoc] using h
  rcases hn with hcal | ⟨hlo, hhi⟩ | ⟨hlo, hhi⟩ | ⟨hlo, hhi⟩
  · exact ⟨.cal ⟨n.toNat, by omega⟩, rfl⟩
  · exact ⟨.raw ⟨n.toNat - 32, by omega⟩, (Nat.add_sub_of_le hlo).symm⟩
  · exact ⟨.res ⟨n.toNat - 48, by omega⟩, (Nat.add_sub_of_le hlo).symm⟩
  · rcases Nat.eq_or_lt_of_le hlo with hslp | hsys
    · exact ⟨.slp, hslp.symm⟩
    · obtain ⟨q, hq⟩ := exists_sysReg_number hsys hhi
      exact ⟨.sys q, hq⟩

/-- The valid bit by register number is the one `RD` tests (R21, R106). -/
theorem validReg_number (r : RegSel) (s : State) : validReg r.number s = r.valid s := by
  cases r with
  | cal i => simp [validReg, RegSel.number, RegSel.valid, calValid]
  | raw k =>
    simp [validReg, RegSel.number, RegSel.valid, rawValid, show ¬ 32 + k.val < 26 by omega,
      show 32 + k.val < 42 by omega]
  | res k =>
    simp [validReg, RegSel.number, RegSel.valid, resValid, show ¬ 48 + k.val < 26 by omega,
      show ¬ 48 + k.val < 42 by omega, show 48 + k.val < 59 by omega]
  | slp => rfl
  | sys q => cases q <;> rfl

/-- `RD` makes one test, for the valid bit, and answers the register's value (R106). -/
theorem readSel_eq_require (r : RegSel) (s : State) :
    readSel r s = require (r.valid s = true) .invalid (.ok (respond (r.value s) s)) := by
  cases r with
  | sys q => exact (require_pos rfl).symm
  | cal i | raw k | res k | slp => rfl

/-- `RD` of a readable register (R106). -/
theorem exec_rd {n : BitVec 7} {r : RegSel} (hn : n.toNat = r.number) (s : State) :
    exec (.rd n) s = complete (encode (.rd n)) s
      (require (r.valid s = true) .invalid (.ok (respond (r.value s) s))) := by
  have hexec : exec (.rd n) s = execRd n s := rfl
  rw [hexec, execRd, regSelOf_of_number hn, ← readSel_eq_require]

/-- `RD` of a valid register answers its value and changes nothing (R106). -/
theorem exec_rd_valid {n : BitVec 7} {r : RegSel} {s : State} (hn : n.toNat = r.number) (hv : r.valid s = true) :
    exec (.rd n) s = .next (respond (r.value s) s) := by
  rw [exec_rd hn, require_pos hv, complete_ok]

/-- `RD` of an invalid register raises E_INVALID (R106). -/
theorem exec_rd_invalid {n : BitVec 7} {r : RegSel} {s : State} (hn : n.toNat = r.number) (hv : r.valid s = false) :
    exec (.rd n) s = .next (raise .invalid (encode (.rd n)) s) := by
  rw [exec_rd hn, require_neg (by simp [hv]), complete_error]

end Sys2Proof.Machine

namespace Sys2Proof.Safety

open Sys2Proof.Machine

/-- No command distinguishes a state from itself (R24). -/
theorem SameVisible.refl (s : State) : SameVisible s s := by
  constructor <;> intros <;> rfl

end Sys2Proof.Safety

namespace Sys2Proof.Proofs

open Sys2Proof.Machine Sys2Proof.Safety

/-- Settles O20: the three clauses are the outcomes of CALCOMMIT's two tests, where equal maps mean that the populated
set is REQ[FAMILY]. -/
theorem calcommitRule : Obligations.CalcommitRule := by
  intro s
  rw [← calV_eq_required_iff, exec_calcommit, ← encode_calcommit]
  refine ⟨fun hstate hset => ?ready, fun hstate => ?seq, fun hstate hset => ?partialSet⟩
  case ready => rw [require_pos hstate, require_pos hset]; rfl
  case seq => rw [require_neg hstate]; rfl
  case partialSet => rw [require_pos hstate, require_neg hset]; rfl

/-- Settles O23: each group of registers is a kind of selector, and `RD` makes the same test for all of them. -/
theorem rdRule : Obligations.RdRule := by
  intro n s
  refine ⟨encode_rd n, fun i hn hv => exec_rd_valid (r := .cal i) hn hv,
    fun k hn hv => exec_rd_valid (r := .raw k) hn hv, fun k hn hv => exec_rd_valid (r := .res k) hn hv,
    fun hn hv => exec_rd_valid (r := .slp) hn hv, fun r hr => exec_rd_sys hr s, fun hwf hv => ?invalid⟩
  case invalid =>
    obtain ⟨r, hn⟩ := exists_number_of_rselReadable hwf
    rw [hn, validReg_number] at hv
    rw [exec_rd_invalid hn hv, encode_rd, faulted_eq_raise]

/-- Settles O18: what RESET leaves is the reset state itself but for the command port and the response. -/
theorem resetRule : Obligations.ResetRule :=
  ⟨rfl, fun s => ⟨_, exec_reset s, SameVisible.refl _⟩⟩

/-- Settles O19: the operand names a family, so CALBEGIN makes one test, for ISTATE. -/
theorem calbeginRule : Obligations.CalbeginRule := by
  rintro _ f s rfl
  rw [exec_calbegin (familyOf_code f), ← encode_calbegin]
  refine ⟨rfl, fun hstate => ?begins, fun hstate => ?seq⟩
  case begins => rw [require_pos hstate]; rfl
  case seq => rw [require_neg hstate]; rfl

/-- Settles O21: ERRCLR makes no test. -/
theorem errclrRule : Obligations.ErrclrRule :=
  ⟨rfl, exec_errclr⟩

/-- Settles O22: in Ready the next state is the new cycle's, whose two maps are 0 and whose BUF lists no cell. -/
theorem cycleRule : Obligations.CycleRule := by
  intro s
  rw [exec_cycle, ← encode_cycle]
  refine ⟨fun hstate => ?clears, fun hstate => ?notReady⟩
  case clears =>
    rw [require_pos hstate, complete_ok]
    exact ⟨_, rfl, rawValid_newCycle s, resValid_newCycle s, Memory.valid_nil, rfl⟩
  case notReady => rw [require_neg hstate]; rfl

/-- Settles O25: the one test is for a zero operand, whose word is the bare opcode. -/
theorem setslpRule : Obligations.SetslpRule := by
  intro imm s
  rw [exec_setslp]
  refine ⟨encode_setslp imm, fun himm => ?nonzero, fun himm => ?zero⟩
  case nonzero => rw [require_pos himm]; rfl
  case zero => subst himm; rw [require_neg (not_not_intro rfl)]; rfl

end Sys2Proof.Proofs
end


section
/-! PROOFS. Buffer and decode commands (41_buffer_decode.md): their words, the checks of R121 to R124 as the fault tests
of R203, and what they write (R120, R125 to R132). -/

namespace Sys2Proof

/-! ### Words of formats B and D -/

/-- A concatenation placed at bit k is its two parts, each placed at its own bit. -/
theorem setWidth_append_shiftLeft {m n : Nat} (x : BitVec m) (v : BitVec n) (w k : Nat) :
    (x ++ v).setWidth w <<< k = x.setWidth w <<< (n + k) ||| v.setWidth w <<< k := by
  refine BitVec.eq_of_getLsbD_eq fun i hi => ?_
  simp only [BitVec.getLsbD_or, BitVec.getLsbD_shiftLeft, BitVec.getLsbD_setWidth, BitVec.getLsbD_append]
  by_cases hk : i < k
  · simp [hk, show i < n + k by omega]
  · by_cases hn : i - k < n
    · simp [hk, hn, hi, show i < n + k by omega]
    · simp [hk, hn, hi, show ¬ i < n + k by omega, show i - k - n = i - (n + k) by omega, show i - k < w by omega,
        show i - (n + k) < w by omega, BitVec.getLsbD_of_ge v _ (Nat.le_of_not_lt hn)]

/-- A word placed at bit 0 is the word. -/
theorem setWidth_shiftLeft_zero (w : Word) : w.setWidth 32 <<< 0 = w := by simp

/-- A word of format D with two offsets (R76). -/
theorem wordD2 (op dst : BitVec 6) (sgn : Bool) (a b : BitVec 6) :
    op ++ dst ++ BitVec.ofBool sgn ++ 0#7 ++ a ++ b =
      op.setWidth 32 <<< 26 ||| dst.setWidth 32 <<< 20 ||| (BitVec.ofBool sgn).setWidth 32 <<< 19
        ||| a.setWidth 32 <<< 6 ||| b.setWidth 32 := by
  rw [← setWidth_shiftLeft_zero (op ++ dst ++ BitVec.ofBool sgn ++ 0#7 ++ a ++ b)]
  simp only [setWidth_append_shiftLeft]
  simp

/-- A word of format D with one offset (R76). -/
theorem wordD (op dst : BitVec 6) (sgn : Bool) (a : BitVec 6) :
    op ++ dst ++ BitVec.ofBool sgn ++ 0#7 ++ a ++ 0#6 =
      op.setWidth 32 <<< 26 ||| dst.setWidth 32 <<< 20 ||| (BitVec.ofBool sgn).setWidth 32 <<< 19
        ||| a.setWidth 32 <<< 6 := by
  rw [wordD2]
  simp

/-- The word of `LDB off, imm8` (R75, R120). -/
theorem encode_ldb (off : BitVec 6) (b : BitVec 8) :
    encode (.ldb off b) = 0x20000000 ||| off.setWidth 32 <<< 8 ||| b.setWidth 32 := by
  rw [← setWidth_shiftLeft_zero (encode _)]
  simp only [encode, setWidth_append_shiftLeft]
  simp

/-- The word of `DEC8` (R76, R125). -/
theorem encode_dec8 (dst : BitVec 6) (sgn : Bool) (a : BitVec 6) : encode (.dec8 dst sgn a) =
    0x40000000 ||| dst.setWidth 32 <<< 20 ||| (BitVec.ofBool sgn).setWidth 32 <<< 19 ||| a.setWidth 32 <<< 6 :=
  wordD 0x10#6 dst sgn a

/-- The word of `DEC16LE` (R76, R126). -/
theorem encode_dec16le (dst : BitVec 6) (sgn : Bool) (a : BitVec 6) : encode (.dec16le dst sgn a) =
    0x44000000 ||| dst.setWidth 32 <<< 20 ||| (BitVec.ofBool sgn).setWidth 32 <<< 19 ||| a.setWidth 32 <<< 6 :=
  wordD 0x11#6 dst sgn a

/-- The word of `DEC16BE` (R76, R127). -/
theorem encode_dec16be (dst : BitVec 6) (sgn : Bool) (a : BitVec 6) : encode (.dec16be dst sgn a) =
    0x48000000 ||| dst.setWidth 32 <<< 20 ||| (BitVec.ofBool sgn).setWidth 32 <<< 19 ||| a.setWidth 32 <<< 6 :=
  wordD 0x12#6 dst sgn a

/-- The word of `DEC12HL` (R76, R128). -/
theorem encode_dec12hl (dst : BitVec 6) (sgn : Bool) (a b : BitVec 6) : encode (.dec12hl dst sgn a b) =
    0x4C000000 ||| dst.setWidth 32 <<< 20 ||| (BitVec.ofBool sgn).setWidth 32 <<< 19
      ||| a.setWidth 32 <<< 6 ||| b.setWidth 32 :=
  wordD2 0x13#6 dst sgn a b

/-- The word of `DEC12MS` (R76, R129). -/
theorem encode_dec12ms (dst : BitVec 6) (sgn : Bool) (a b : BitVec 6) : encode (.dec12ms dst sgn a b) =
    0x50000000 ||| dst.setWidth 32 <<< 20 ||| (BitVec.ofBool sgn).setWidth 32 <<< 19
      ||| a.setWidth 32 <<< 6 ||| b.setWidth 32 :=
  wordD2 0x14#6 dst sgn a b

/-- The word of `DEC20` (R76, R130). -/
theorem encode_dec20 (dst a : BitVec 6) :
    encode (.dec20 dst a) = 0x54000000 ||| dst.setWidth 32 <<< 20 ||| a.setWidth 32 <<< 6 := by
  rw [← setWidth_shiftLeft_zero (encode _)]
  simp only [encode, setWidth_append_shiftLeft]
  simp

/-- The word of `DECBF` (R76, R131). -/
theorem encode_decbf (dst : BitVec 6) (sgn : Bool) (lsb wm1 : BitVec 3) (a : BitVec 6) :
    encode (.decbf dst sgn lsb wm1 a) =
      0x58000000 ||| dst.setWidth 32 <<< 20 ||| (BitVec.ofBool sgn).setWidth 32 <<< 19
        ||| lsb.setWidth 32 <<< 16 ||| wm1.setWidth 32 <<< 13 ||| a.setWidth 32 <<< 6 := by
  rw [← setWidth_shiftLeft_zero (encode _)]
  simp only [encode, setWidth_append_shiftLeft]
  simp

/-- The word of `DECGAS` (R76, R132). -/
theorem encode_decgas (a : BitVec 6) : encode (.decgas a) = 0x5C000000 ||| a.setWidth 32 <<< 6 := by
  rw [← setWidth_shiftLeft_zero (encode _)]
  simp only [encode, setWidth_append_shiftLeft]
  simp

end Sys2Proof

namespace Sys2Proof.Machine

open Sys2Proof.Safety

/-! ### The rules as equations -/

/-- LDB completes in every state (R120). -/
theorem exec_ldb (off : BitVec 6) (b : BitVec 8) (s : State) :
    exec (.ldb off b) s = .next (respond 0 { s with buf := Memory.write s.buf off.toNat b }) := rfl

theorem exec_dec8 (dst : BitVec 6) (sgn : Bool) (a : BitVec 6) (s : State) :
    exec (.dec8 dst sgn a) s = complete (encode (.dec8 dst sgn a)) s
      (decodeTo dst sgn [a.toNat] (widen sgn (Memory.cell s.buf a.toNat)) s) := rfl

theorem exec_dec16le (dst : BitVec 6) (sgn : Bool) (a : BitVec 6) (s : State) :
    exec (.dec16le dst sgn a) s = complete (encode (.dec16le dst sgn a)) s
      (decodeTo dst sgn [a.toNat, a.toNat + 1]
        (widen sgn (le16 (Memory.cell s.buf a.toNat) (Memory.cell s.buf (a.toNat + 1)))) s) := rfl

theorem exec_dec16be (dst : BitVec 6) (sgn : Bool) (a : BitVec 6) (s : State) :
    exec (.dec16be dst sgn a) s = complete (encode (.dec16be dst sgn a)) s
      (decodeTo dst sgn [a.toNat, a.toNat + 1]
        (widen sgn (be16 (Memory.cell s.buf a.toNat) (Memory.cell s.buf (a.toNat + 1)))) s) := rfl

theorem exec_dec12hl (dst : BitVec 6) (sgn : Bool) (a b : BitVec 6) (s : State) :
    exec (.dec12hl dst sgn a b) s = complete (encode (.dec12hl dst sgn a b)) s
      (decodeTo dst sgn [a.toNat, b.toNat]
        (widen sgn (hl12 (Memory.cell s.buf a.toNat) (Memory.cell s.buf b.toNat))) s) := rfl

theorem exec_dec12ms (dst : BitVec 6) (sgn : Bool) (a b : BitVec 6) (s : State) :
    exec (.dec12ms dst sgn a b) s = complete (encode (.dec12ms dst sgn a b)) s
      (decodeTo dst sgn [a.toNat, b.toNat]
        (widen sgn (ms12 (Memory.cell s.buf a.toNat) (Memory.cell s.buf b.toNat))) s) := rfl

theorem exec_dec20 (dst a : BitVec 6) (s : State) :
    exec (.dec20 dst a) s = complete (encode (.dec20 dst a)) s
      (decodeTo dst false [a.toNat, a.toNat + 1, a.toNat + 2]
        (widen false (msb20 (Memory.cell s.buf a.toNat) (Memory.cell s.buf (a.toNat + 1))
          (Memory.cell s.buf (a.toNat + 2)))) s) := rfl

/-- DECBF with a field inside the byte, which R80 asks of a legal word (R131). -/
theorem exec_decbf (dst : BitVec 6) (sgn : Bool) {lsb wm1 : BitVec 3} (hfield : lsb.toNat + wm1.toNat + 1 ≤ 8)
    (a : BitVec 6) (s : State) :
    exec (.decbf dst sgn lsb wm1 a) s = complete (encode (.decbf dst sgn lsb wm1 a)) s
      (decodeTo dst sgn [a.toNat]
        (widen sgn (bitField (Memory.cell s.buf a.toNat) lsb.toNat (wm1.toNat + 1))) s) := by
  have hexec : exec (.decbf dst sgn lsb wm1 a) s = execDecbf dst sgn lsb wm1 a s := rfl
  rw [hexec, execDecbf, require_pos hfield]

theorem exec_decgas (a : BitVec 6) (s : State) :
    exec (.decgas a) s = complete (encode (.decgas a)) s (decodeGas a.toNat s) := rfl

/-- A legal decode command has a destination and is the checks and the write of `decodeTo` (R121 to R124). -/
theorem exec_of_decodeForm {i : Instr} {dst : BitVec 6} {offs : List Nat} (hform : decodeForm i = some (dst, offs))
    (hwf : i.wf = true) (s : State) : ∃ (sgn : Bool) (d : Dest) (v : Word), destOf dst sgn = some d ∧
      exec i s = complete (encode i) s (decodeTo dst sgn offs v s) := by
  cases i <;> cases hform
  case decbf sgn lsb wm1 a =>
    obtain ⟨hdest, hfield⟩ := by simpa only [Instr.wf, Bool.and_eq_true, decide_eq_true_eq] using hwf
    obtain ⟨d, hd⟩ := (destLegal_iff _ _).1 hdest
    exact ⟨sgn, d, _, hd, exec_decbf _ sgn hfield a s⟩
  all_goals
    obtain ⟨d, hd⟩ := (destLegal_iff _ _).1 hwf
    exact ⟨_, d, _, hd, rfl⟩

/-- A legal decode with a calibration destination (R123). -/
theorem exec_of_decodeForm_cal {i : Instr} {dst : BitVec 6} {offs : List Nat} {n : Fin 26}
    (hform : decodeForm i = some (dst, offs)) (hwf : i.wf = true) (hn : dst.toNat = n.val) (s : State) :
    ∃ v, exec i s = complete (encode i) s (decodeCal n offs v s) := by
  obtain ⟨sgn, d, v, -, hexec⟩ := exec_of_decodeForm hform hwf s
  exact ⟨v, by rw [hexec, decodeTo, destOf_cal sgn hn]⟩

/-- A legal decode with a raw destination (R124). -/
theorem exec_of_decodeForm_raw {i : Instr} {dst : BitVec 6} {offs : List Nat} {k : Fin 10}
    (hform : decodeForm i = some (dst, offs)) (hwf : i.wf = true) (hk : dst.toNat = 32 + k.val) (s : State) :
    ∃ v, exec i s = complete (encode i) s (decodeRaw k offs v s) := by
  obtain ⟨sgn, d, v, hd, hexec⟩ := exec_of_decodeForm hform hwf s
  obtain ⟨m, -, hm⟩ | ⟨rfl, -⟩ := destOf_eq_some.1 hd
  · omega
  · exact ⟨v, by rw [hexec, decodeTo, destOf_raw hk]⟩

/-! ### Where the source check stops -/

theorem Memory.valid_iff_ne_none (m : Memory) (a : Nat) : Memory.valid m a = true ↔ Memory.read m a ≠ none := by
  rw [Memory.valid, Option.isSome_iff_ne_none]

/-- The source check stops at an offset beyond BUF (R121). -/
theorem sourceCheck_far {offs : List Nat} {s : State} {k : Except ErrCode State} (h : ∃ a ∈ offs, 63 < a) :
    sourceCheck offs s k = .error .range := by
  obtain ⟨a, ha, hfar⟩ := h
  exact require_neg fun hnear => absurd (hnear a ha) (Nat.not_lt_of_le hfar)

/-- The source check stops at a cell that holds no value (R121). -/
theorem sourceCheck_empty {offs : List Nat} {s : State} {k : Except ErrCode State} (hnear : ∀ a ∈ offs, a ≤ 63)
    (h : ∃ a ∈ offs, Memory.read s.buf a = none) : sourceCheck offs s k = .error .bufInvalid := by
  obtain ⟨a, ha, hnone⟩ := h
  have hrange : ∀ a ∈ offs, a < Config.bufSize := fun a ha => Nat.lt_succ_of_le (hnear a ha)
  rw [sourceCheck, require_pos hrange]
  exact require_neg fun hvalid => (Memory.valid_iff_ne_none s.buf a).1 (hvalid a ha) hnone

/-! ### The write of a decode command whose tests all pass -/

/-- A decode of the field x, whose number is v, writes `sext_n(v)` or v (R11, R13, R123, R124). -/
theorem complete_decodeTo_open {n : Nat} {x : BitVec n} {v : Int} (hv : v = x.toNat) (hpos : 0 < n) (hlt : n < 32)
    {offs : List Nat} {s : State} (hrange : ∀ a ∈ offs, a ≤ 63)
    (hvalid : ∀ a ∈ offs, Memory.valid s.buf a = true) (w : Word) (dst : BitVec 6) (sgn : Bool) :
    (∀ i : Fin 26, calOpen dst i s → complete w s (decodeTo dst sgn offs (widen sgn x) s) =
      .next (calWritten i (if sgn then Formulas.sext n v else v) s)) ∧
    (∀ k : Fin 10, rawOpen dst k s → sgn = false → complete w s (decodeTo dst sgn offs (widen sgn x) s) =
      .next (rawWritten k v s)) := by
  subst hv
  refine ⟨fun i hopen => ?cal, fun k hopen hsgn => ?raw⟩
  case cal => rw [decodeTo_calOpen hopen hrange hvalid, complete_ok, widen_eq_u32 sgn x hpos hlt, calWritten_eq]
  case raw =>
    subst hsgn
    rw [decodeTo_rawOpen hopen hrange hvalid, complete_ok, widen_eq_u32 false x hpos hlt, rawWritten_eq]
    rfl

end Sys2Proof.Machine

namespace Sys2Proof.Safety

open Sys2Proof.Machine

/-! ### The checks as the fault tests of R203 -/

/-- The end of a rule whose tests found the fault f, or none and then left t. -/
def outcome (f : Option ErrCode) (t : State) : Except ErrCode State :=
  match f with
  | some e => .error e
  | none => .ok t

/-- A test that nothing follows is the last one (R203). -/
theorem outcome_ite (c : Prop) [Decidable c] (e : ErrCode) (t : State) :
    outcome (if c then none else some e) t = require c e (.ok t) := by
  unfold require
  split <;> rfl

/-- A test that comes first is tested first (R203). -/
theorem outcome_ite_or (c : Prop) [Decidable c] (e : ErrCode) (f : Option ErrCode) (t : State) :
    outcome ((if c then none else some e).or f) t = require c e (outcome f t) := by
  unfold require
  split <;> rfl

variable {i : Instr} {dst : BitVec 6} {offs : List Nat}

theorem destinations_of_decodeForm (hform : decodeForm i = some (dst, offs)) : destinations i = [dst.toNat] := by
  cases i <;> cases hform <;> rfl

theorem sources_of_decodeForm (hform : decodeForm i = some (dst, offs)) : sources i = offs := by
  cases i <;> cases hform <;> rfl

/-- A decode command needs no register valid (R203 point 6). -/
theorem sourceFault_of_decodeForm (hform : decodeForm i = some (dst, offs)) (s : State) : sourceFault i s = none := by
  have hregisters : fineSources i = [] ∧ otherSources i = [] := by
    cases i <;> cases hform <;> exact ⟨rfl, rfl⟩
  obtain ⟨hfine, hother⟩ := hregisters
  simp [sourceFault, hfine, hother]

/-- Points 8 and 9 of R203 make no test of a decode command. -/
theorem lateFaults_of_decodeForm (hform : decodeForm i = some (dst, offs)) (s : State) :
    domainFault i s = none ∧ completenessFault i s = none := by
  cases i <;> cases hform <;> exact ⟨rfl, rfl⟩

theorem stateFault_of_decodeForm (hform : decodeForm i = some (dst, offs)) (s : State) :
    stateFault i s = if dst.toNat < 26 then
        (if s.istate ≠ .uninitialized then none else some ErrCode.seq).or
          (if s.istate ≠ .ready then none else some ErrCode.calLocked)
      else if s.istate = .ready then none else some ErrCode.notReady := by
  cases i <;> cases hform <;> unfold stateFault <;> cases s.istate <;> rfl

theorem familyFault_of_decodeForm (hform : decodeForm i = some (dst, offs)) (s : State) :
    familyFault i s = if dst.toNat ∈ Formulas.req s.family ++ Formulas.rawset s.family then none
      else some ErrCode.family := by
  have hdest := destinations_of_decodeForm hform
  cases i <;> cases hform <;> simp only [familyFault, hdest, List.forall_mem_singleton]

/-- The tests of a decode command, in the order of R203: state, family, range, cells, destination. -/
theorem firstFault_of_decodeForm (hform : decodeForm i = some (dst, offs)) (s : State) :
    firstFault i s = (stateFault i s).or ((familyFault i s).or
      ((if ∀ a ∈ offs, a < Config.bufSize then none else some ErrCode.range).or
      ((if ∀ a ∈ offs, Memory.valid s.buf a = true then none else some ErrCode.bufInvalid).or
      (if validReg dst.toNat s = false then none
        else if dst.toNat < 26 then some ErrCode.calLocked else some ErrCode.rawSet)))) := by
  obtain ⟨hdomain, hcomplete⟩ := lateFaults_of_decodeForm hform s
  simp only [firstFault, rangeFault, bufferFault, onceFault, sources_of_decodeForm hform,
    destinations_of_decodeForm hform, sourceFault_of_decodeForm hform, hdomain, hcomplete, List.forall_mem_singleton,
    Config.bufSize, Nat.lt_succ_iff, Memory.valid_iff, Option.orElse_eq_orElse, Option.orElse_eq_or, Option.none_or,
    Option.or_none]

/-- A calibration register of the family is one of REQ[FAMILY] (R22, R25). -/
theorem mem_registers_cal_iff (n : Fin 26) (s : State) :
    n.val ∈ Formulas.req s.family ++ Formulas.rawset s.family ↔ inRequired n s = true := by
  rw [inRequired_iff]
  cases s.family <;> revert n <;> decide

/-- A raw register of the family is one of RAWSET[FAMILY] (R22, R25). -/
theorem mem_registers_raw_iff (k : Fin 10) (s : State) :
    32 + k.val ∈ Formulas.req s.family ++ Formulas.rawset s.family ↔ inRawSet k s = true := by
  rw [inRawSet_iff]
  cases s.family <;> revert k <;> decide

/-- R123's checks are the tests of R203 in their order. -/
theorem decodeCal_eq_outcome (hform : decodeForm i = some (dst, offs)) {n : Fin 26} (hn : dst.toNat = n.val)
    (v : Word) (s : State) :
    decodeCal n offs v s = outcome (firstFault i s) (respond 0 (writeCal n v s)) := by
  have hlt : dst.toNat < 26 := hn ▸ n.isLt
  have hvalid : validReg dst.toNat s = calValid n s := hn ▸ validReg_number (.cal n) s
  have hfamily := hn ▸ mem_registers_cal_iff n s
  rw [firstFault_of_decodeForm hform, stateFault_of_decodeForm hform, familyFault_of_decodeForm hform]
  simp only [if_pos hlt, hvalid, hfamily, Option.or_assoc, outcome_ite_or, outcome_ite, decodeCal, sourceCheck]

/-- R124's checks are the tests of R203 in their order. -/
theorem decodeRaw_eq_outcome (hform : decodeForm i = some (dst, offs)) {k : Fin 10} (hk : dst.toNat = 32 + k.val)
    (v : Word) (s : State) :
    decodeRaw k offs v s = outcome (firstFault i s) (respond 0 (writeRaw k v s)) := by
  have hge : ¬ dst.toNat < 26 := by omega
  have hvalid : validReg dst.toNat s = rawValid k s := hk ▸ validReg_number (.raw k) s
  have hfamily := hk ▸ mem_registers_raw_iff k s
  rw [firstFault_of_decodeForm hform, stateFault_of_decodeForm hform, familyFault_of_decodeForm hform]
  simp only [if_neg hge, hvalid, hfamily, outcome_ite_or, outcome_ite, decodeRaw, sourceCheck]

/-- A legal decode command runs the tests of R203 and then writes (R121 to R131). -/
theorem exec_eq_outcome (hform : decodeForm i = some (dst, offs)) (hwf : i.wf = true) (s : State) :
    ∃ t, exec i s = complete (encode i) s (outcome (firstFault i s) t) := by
  obtain ⟨_, _, _, hd, -⟩ := exec_of_decodeForm hform hwf s
  rcases destOf_eq_some.1 hd with ⟨n, -, hn⟩ | ⟨-, k, -, hk⟩
  · obtain ⟨v, hexec⟩ := exec_of_decodeForm_cal hform hwf hn s
    exact ⟨_, by rw [hexec, decodeCal_eq_outcome hform hn]⟩
  · obtain ⟨v, hexec⟩ := exec_of_decodeForm_raw hform hwf hk s
    exact ⟨_, by rw [hexec, decodeRaw_eq_outcome hform hk]⟩

/-- A legal decode command raises the first fault of R203 and changes only the latch (R204). -/
theorem checked_of_decodeForm (hform : decodeForm i = some (dst, offs)) : checked i := by
  intro hwf s e hfault
  obtain ⟨t, hexec⟩ := exec_eq_outcome hform hwf s
  rw [hexec, hfault, faulted_eq_raise]
  rfl

end Sys2Proof.Safety

namespace Sys2Proof.Machine

open Sys2Proof.Safety

/-! ### DECGAS -/

/-- Both destinations of DECGAS are raw registers of family B and of no other (R25, R132). -/
theorem inRawSet_gas_iff (s : State) : inRawSet Raw.G s = true ∧ inRawSet Raw.GRANGE s = true ↔ s.family = .B := by
  unfold inRawSet
  cases s.family <;> decide

/-- Everything that stops DECGAS, in the order of R132. -/
theorem decodeGas_error (a : Nat) (s : State)
    (h : ¬ (s.istate = .ready ∧ s.family = .B ∧ a + 1 ≤ 63 ∧
      (∃ b0 b1, Memory.read s.buf a = some b0 ∧ Memory.read s.buf (a + 1) = some b1) ∧
      rawValid Raw.G s = false ∧ rawValid Raw.GRANGE s = false)) :
    decodeGas a s = .error (if s.istate ≠ .ready then .notReady else if s.family ≠ .B then .family
      else if 63 < a + 1 then .range
      else if Memory.read s.buf a = none ∨ Memory.read s.buf (a + 1) = none then .bufInvalid
      else .rawSet) := by
  unfold decodeGas
  by_cases hready : s.istate = .ready
  case neg => rw [require_neg hready, if_pos hready]
  rw [require_pos hready, if_neg (not_not_intro hready)]
  by_cases hfamily : s.family = .B
  case neg => rw [require_neg (mt (inRawSet_gas_iff s).1 hfamily), if_pos hfamily]
  rw [require_pos ((inRawSet_gas_iff s).2 hfamily), if_neg (not_not_intro hfamily)]
  by_cases hfar : 63 < a + 1
  case pos => rw [sourceCheck_far ⟨a + 1, by simp, hfar⟩, if_pos hfar]
  rw [if_neg hfar]
  have hnear : ∀ x ∈ [a, a + 1], x ≤ 63 := by simp; omega
  by_cases hempty : Memory.read s.buf a = none ∨ Memory.read s.buf (a + 1) = none
  case pos => rw [sourceCheck_empty hnear (by simpa using hempty), if_pos hempty]
  obtain ⟨h0, h1⟩ := not_or.1 hempty
  obtain ⟨b0, hb0⟩ := Option.ne_none_iff_exists'.1 h0
  obtain ⟨b1, hb1⟩ := Option.ne_none_iff_exists'.1 h1
  rw [sourceCheck_pass hnear (by simp [Memory.valid_of_read hb0, Memory.valid_of_read hb1]), if_neg hempty]
  exact require_neg fun hfree => h ⟨hready, hfamily, Nat.le_of_not_lt hfar, ⟨b0, b1, hb0, hb1⟩, hfree⟩

/-- What DECGAS writes when no test stops it (R132). -/
theorem decodeGas_complete {a : Nat} {b0 b1 : Byte} {s : State} (hready : s.istate = .ready) (hfamily : s.family = .B)
    (hrange : a + 1 ≤ 63) (h0 : Memory.read s.buf a = some b0) (h1 : Memory.read s.buf (a + 1) = some b1)
    (hcount : rawValid Raw.G s = false) (hgrange : rawValid Raw.GRANGE s = false) :
    decodeGas a s = .ok (rawWritten Raw.GRANGE (b1.toNat % 16)
      (rawWritten Raw.G (4 * b0.toNat + Formulas.sra b1.toNat 6) s)) := by
  have hcountValue : (4 * b0.toNat + Formulas.sra b1.toNat 6 : Int) = (gasCount b0 b1).toNat := by
    rw [toNat_gasCount, Formulas.sra]; push_cast; rfl
  have hrangeValue : (b1.toNat % 16 : Int) = (gasRange b1).toNat := by
    rw [toNat_gasRange]; push_cast; rfl
  rw [decodeGas_ok]
  refine ⟨hready, (inRawSet_gas_iff s).2 hfamily, ?_, ?_, ⟨hcount, hgrange⟩, ?_⟩
  · simp [Config.bufSize]; omega
  · simp [Memory.valid_of_read h0, Memory.valid_of_read h1]
  · rw [Memory.cell_of_read h0, Memory.cell_of_read h1, widen_eq_u32 false _ (by decide) (by decide),
      widen_eq_u32 false _ (by decide) (by decide), hcountValue, hrangeValue]
    rfl

end Sys2Proof.Machine

namespace Sys2Proof.Proofs

open Sys2Proof.Machine Sys2Proof.Safety

/-- Settles O26: LDB makes no test, and a store leaves every other cell alone. -/
theorem ldbRule : Obligations.LdbRule := fun off b s =>
  ⟨_, exec_ldb off b s, Memory.read_write_same s.buf off.toNat b,
    fun a ha => Memory.read_write_other s.buf off.toNat a b ha, rfl, encode_ldb off b⟩

/-- Settles O27: one byte. -/
theorem dec8Rule : Obligations.Dec8Rule := by
  intro dst sgn a
  refine ⟨encode_dec8 dst sgn a, checked_of_decodeForm rfl, fun b s hb => ?_⟩
  rw [exec_dec8, Memory.cell_of_read hb]
  exact complete_decodeTo_open rfl (by decide) (by decide) (by simp; omega) (by simp [Memory.valid_of_read hb]) _ _ _

/-- Settles O28: two bytes, whose number is `toNat_le16`. -/
theorem dec16leRule : Obligations.Dec16leRule := by
  intro dst sgn a
  refine ⟨encode_dec16le dst sgn a, checked_of_decodeForm rfl, fun b0 b1 s v hrange h0 h1 hv => ?_⟩
  rw [exec_dec16le, Memory.cell_of_read h0, Memory.cell_of_read h1]
  refine complete_decodeTo_open (hv.trans ?_) (by decide) (by decide) (by simp; omega)
    (by simp [Memory.valid_of_read h0, Memory.valid_of_read h1]) _ _ _
  rw [toNat_le16]; push_cast; rfl

/-- Settles O29: two bytes, whose number is `toNat_be16`. -/
theorem dec16beRule : Obligations.Dec16beRule := by
  intro dst sgn a
  refine ⟨encode_dec16be dst sgn a, checked_of_decodeForm rfl, fun b0 b1 s v hrange h0 h1 hv => ?_⟩
  rw [exec_dec16be, Memory.cell_of_read h0, Memory.cell_of_read h1]
  refine complete_decodeTo_open (hv.trans ?_) (by decide) (by decide) (by simp; omega)
    (by simp [Memory.valid_of_read h0, Memory.valid_of_read h1]) _ _ _
  rw [toNat_be16]; push_cast; rfl

/-- Settles O30: a byte and a low nibble, whose number is `toNat_hl12`. -/
theorem dec12hlRule : Obligations.Dec12hlRule := by
  intro dst sgn a b
  refine ⟨encode_dec12hl dst sgn a b, checked_of_decodeForm rfl, fun ba bb s v ha hb hv => ?_⟩
  rw [exec_dec12hl, Memory.cell_of_read ha, Memory.cell_of_read hb]
  refine complete_decodeTo_open (hv.trans ?_) (by decide) (by decide) (by simp; omega)
    (by simp [Memory.valid_of_read ha, Memory.valid_of_read hb]) _ _ _
  rw [toNat_hl12]; push_cast; rfl

/-- Settles O31: a byte and a high nibble, whose number is `toNat_ms12`. -/
theorem dec12msRule : Obligations.Dec12msRule := by
  intro dst sgn a b
  refine ⟨encode_dec12ms dst sgn a b, checked_of_decodeForm rfl, fun ba bb s v ha hb hv => ?_⟩
  rw [exec_dec12ms, Memory.cell_of_read ha, Memory.cell_of_read hb]
  refine complete_decodeTo_open (hv.trans ?_) (by decide) (by decide) (by simp; omega)
    (by simp [Memory.valid_of_read ha, Memory.valid_of_read hb]) _ _ _
  rw [toNat_ms12, Formulas.sra]; push_cast; rfl

/-- Settles O32: two bytes and a high nibble, whose number is `toNat_msb20`; there is no signed form. -/
theorem dec20Rule : Obligations.Dec20Rule := by
  intro dst a
  refine ⟨encode_dec20 dst a, checked_of_decodeForm rfl, fun b0 b1 b2 s v hrange h0 h1 h2 hv => ?_⟩
  rw [exec_dec20, Memory.cell_of_read h0, Memory.cell_of_read h1, Memory.cell_of_read h2]
  have hv' : v = (msb20 b0 b1 b2).toNat := by
    rw [hv, toNat_msb20, Formulas.sra]; push_cast; rfl
  have hvalid : ∀ x ∈ [a.toNat, a.toNat + 1, a.toNat + 2], Memory.valid s.buf x = true := by
    simp [Memory.valid_of_read h0, Memory.valid_of_read h1, Memory.valid_of_read h2]
  obtain ⟨hcal, hraw⟩ :=
    complete_decodeTo_open hv' (by decide) (by decide) (by simp; omega) hvalid (encode (.dec20 dst a)) dst false
  exact ⟨hcal, fun k hopen => hraw k hopen rfl⟩

/-- Settles O33: a field of one byte, whose number is `toNat_bitField`. -/
theorem decbfRule : Obligations.DecbfRule := by
  intro dst sgn lsb wm1 a
  refine ⟨encode_decbf dst sgn lsb wm1 a, checked_of_decodeForm rfl, fun b s n v hn hfield hb hv => ?_⟩
  subst hn
  rw [exec_decbf dst sgn hfield, Memory.cell_of_read hb]
  refine complete_decodeTo_open (hv.trans ?_) (Nat.succ_pos _) (by omega) (by simp; omega)
    (by simp [Memory.valid_of_read hb]) _ _ _
  rw [toNat_bitField, Formulas.sra]; push_cast; rfl

/-- Settles O34: `decodeGas_ok` gives the two writes, `decodeGas_error` the five faults. -/
theorem decgasRule : Obligations.DecgasRule := by
  intro a s
  rw [exec_decgas, ← encode_decgas]
  refine ⟨fun b0 b1 hready hfamily hrange h0 h1 hcount hgrange => ?writes, fun hstop => ?faults⟩
  case writes => rw [decodeGas_complete hready hfamily hrange h0 h1 hcount hgrange, complete_ok]
  case faults => rw [decodeGas_error a.toNat s hstop, complete_error, faulted_eq_raise]

/-- Settles O35: a decode to a calibration register is `decodeCal`, whose tests stand in this order. -/
theorem calibrationDecodeChecks : Obligations.CalibrationDecodeChecks := by
  intro i dst offs n s hwf hform hn
  obtain ⟨v, hexec⟩ := exec_of_decodeForm_cal hform hwf hn s
  rw [hexec, decodeCal]
  refine ⟨fun hstate => ?seq, fun hstate => ?locked, fun hstate hreq => ?family, fun hstate hreq hfar => ?range,
    fun hstate hreq hnear hempty => ?bufInvalid, fun hstate hreq hnear hfull hset => ?populated⟩
  case seq => rw [require_neg (not_not_intro hstate)]; rfl
  case locked => rw [require_pos (by simp [hstate]), require_neg (not_not_intro hstate)]; rfl
  all_goals rw [require_pos (by simp [hstate]), require_pos (by simp [hstate])]
  case family => rw [require_neg (mt (inRequired_iff n s).1 hreq)]; rfl
  all_goals rw [require_pos ((inRequired_iff n s).2 hreq)]
  case range => rw [sourceCheck_far hfar]; rfl
  case bufInvalid => rw [sourceCheck_empty hnear hempty]; rfl
  case populated =>
    rw [sourceCheck_pass hnear (fun a ha => (Memory.valid_iff_ne_none s.buf a).2 (hfull a ha)),
      require_neg (by simp [hset])]; rfl

end Sys2Proof.Proofs
end


section
/-! PROOFS. Environmental compensation (42_comp_env.md): the tests of COMPT, COMPP, COMPH and ALT in their order, the
values they write (R151 to R160), and the bound of ALTFN (R161). -/

namespace Sys2Proof.Machine

open Sys2Proof.Safety

/-! ### Tests in a row -/

/-- Tests in a row stop at the first that does not hold; `q` is the statement's own form of its failure (R15). -/
theorem require_stops {c q : Prop} [Decidable c] [Decidable q] {e e' : ErrCode} {k : Except ErrCode State}
    (hq : ¬ c ↔ q) (hrest : c → k = .error e') : require c e k = .error (if q then e else e') := by
  by_cases hc : c
  case pos => rw [require_pos hc, if_neg (fun hfail => hq.2 hfail hc), hrest hc]
  case neg => rw [require_neg hc, if_pos (hq.1 hc)]

/-- What COMPP and COMPH test in common: both need TFINE and one raw sample (R154, R157). -/
def fineTests (k : Fin 10) (s : State) (rest : Except ErrCode State) : Except ErrCode State :=
  require (s.istate = .ready) .notReady <|
  require (s.family ≠ .U) .family <|
  require (resValid Res.TFINE s = true) .noFine <|
  require (rawValid k s = true) .invalid rest

theorem fineTests_pass {k : Fin 10} {s : State} {rest : Except ErrCode State} (hready : s.istate = .ready)
    (hfamily : s.family ≠ .U) (hfine : resValid Res.TFINE s = true) (hraw : rawValid k s = true) :
    fineTests k s rest = rest := by
  rw [fineTests, require_pos hready, require_pos hfamily, require_pos hfine, require_pos hraw]

/-- Everything that stops COMPP and COMPH, in the order of R154 and R157. -/
theorem fineTests_stop {k : Fin 10} {s : State} {rest : Except ErrCode State}
    (h : ¬ (s.istate = .ready ∧ s.family ≠ .U ∧ resValid Res.TFINE s = true ∧ rawValid k s = true)) :
    fineTests k s rest = .error (if s.istate ≠ .ready then .notReady else if s.family = .U then .family
      else if resValid Res.TFINE s = false then .noFine else .invalid) :=
  require_stops Iff.rfl fun hready => require_stops not_not fun hfamily =>
    require_stops (Bool.not_eq_true _).to_iff fun hfine => require_neg fun hraw => h ⟨hready, hfamily, hfine, hraw⟩

/-! ### The rules as equations -/

/-- COMPT (R151). -/
theorem exec_compt (s : State) : exec .compt s = complete 0x80000000 s
    (require (s.istate = .ready) .notReady <|
     require (s.family ≠ .U) .family <|
     require (rawValid Raw.T s = true) .invalid <|
     .ok (respond 0 (writeRes Res.T (temperature s).2 (writeRes Res.TFINE (temperature s).1 s)))) := rfl

/-- COMPP (R154). -/
theorem exec_compp (s : State) : exec .compp s =
    complete 0x84000000 s (fineTests Raw.P s (.ok (respond 0 (writeRes Res.P (pressure s) s)))) := rfl

/-- COMPH (R157). -/
theorem exec_comph (s : State) : exec .comph s =
    complete 0x88000000 s (fineTests Raw.H s (.ok (respond 0 (writeRes Res.H (humidity s) s)))) := rfl

/-- ALT (R160). -/
theorem exec_alt (s : State) : exec .alt s = complete 0x8C000000 s
    (require (s.istate = .ready) .notReady <|
     require (s.family ≠ .U) .family <|
     require (resValid Res.P s = true) .invalid <|
     require (s.slpV = true) .invalid <|
     require (s.res[Res.P] ≠ 0) .domain <|
     .ok (respond 0 (writeRes Res.ALT (altFn s.res[Res.P].toNat (altDen s.family) s.slp.toNat) s))) := rfl

/-! ### Completion -/

/-- A command that writes the value of a word writes the word (R13). -/
theorem resWritten_toInt (k : Fin 11) (x : Word) (s : State) :
    resWritten k x.toInt s = respond 0 (writeRes k x s) := by
  rw [resWritten_eq, Laws.u32_toInt]

/-- The integer temperature formula of the family has the values COMPT writes (R151 to R153). -/
theorem temperature_toInt (s : State) :
    (if s.family = .A then Formulas.tempA else Formulas.tempB) (Formulas.rawS s Raw.T)
      (Formulas.calS s Cal.T1) (Formulas.calS s Cal.T2) (Formulas.calS s Cal.T3) =
    ((temperature s).1.toInt, (temperature s).2.toInt) := by
  by_cases hA : s.family = .A
  case pos =>
    rw [if_pos hA, temperature, if_pos hA]
    exact Laws.tempA_toInt s.raw[Raw.T] s.cal[Cal.T1] s.cal[Cal.T2] s.cal[Cal.T3]
  case neg =>
    rw [if_neg hA, temperature, if_neg hA]
    exact Laws.tempB_toInt s.raw[Raw.T] s.cal[Cal.T1] s.cal[Cal.T2] s.cal[Cal.T3]

theorem pressure_familyA {s : State} (hA : s.family = .A) :
    Formulas.u32 (Formulas.pressA (Formulas.rawS s Raw.P) (Formulas.resS s Res.TFINE)
      (Formulas.calS s Cal.P1) (Formulas.calS s Cal.P2) (Formulas.calS s Cal.P3) (Formulas.calS s Cal.P4)
      (Formulas.calS s Cal.P5) (Formulas.calS s Cal.P6) (Formulas.calS s Cal.P7) (Formulas.calS s Cal.P8)
      (Formulas.calS s Cal.P9)) = pressure s := by
  rw [pressure, if_pos hA]
  exact Laws.pressA_u32 ..

theorem pressure_familyB {s : State} (hB : s.family = .B) :
    Formulas.u32 (Formulas.pressB (Formulas.rawS s Raw.P) (Formulas.resS s Res.TFINE)
      (Formulas.calS s Cal.P1) (Formulas.calS s Cal.P2) (Formulas.calS s Cal.P3) (Formulas.calS s Cal.P4)
      (Formulas.calS s Cal.P5) (Formulas.calS s Cal.P6) (Formulas.calS s Cal.P7) (Formulas.calS s Cal.P8)
      (Formulas.calS s Cal.P9) (Formulas.calS s Cal.P10)) = pressure s := by
  rw [pressure, if_neg (by simp [hB])]
  exact Laws.pressB_u32 ..

theorem humidity_familyA {s : State} (hA : s.family = .A) :
    Formulas.humA (Formulas.rawS s Raw.H) (Formulas.resS s Res.TFINE)
      (Formulas.calS s Cal.H1) (Formulas.calS s Cal.H2) (Formulas.calS s Cal.H3) (Formulas.calS s Cal.H4)
      (Formulas.calS s Cal.H5) (Formulas.calS s Cal.H6) = (humidity s).toInt := by
  rw [humidity, if_pos hA]
  exact Laws.humA_toInt ..

theorem humidity_familyB {s : State} (hB : s.family = .B) :
    Formulas.humB (Formulas.rawS s Raw.H) (Formulas.resS s Res.TFINE)
      (Formulas.calS s Cal.H1) (Formulas.calS s Cal.H2) (Formulas.calS s Cal.H3) (Formulas.calS s Cal.H4)
      (Formulas.calS s Cal.H5) (Formulas.calS s Cal.H6) (Formulas.calS s Cal.H7) = (humidity s).toInt := by
  rw [humidity, if_neg (by simp [hB])]
  exact Laws.humB_toInt ..

/-- COMPP completes when no test stops it (R154). -/
theorem exec_compp_completes {s : State} (hready : s.istate = .ready) (hfamily : s.family ≠ .U)
    (hfine : resValid Res.TFINE s = true) (hraw : rawValid Raw.P s = true) :
    exec .compp s = .next (respond 0 (writeRes Res.P (pressure s) s)) := by
  rw [exec_compp, fineTests_pass hready hfamily hfine hraw, complete_ok]

/-- COMPH completes when no test stops it (R157). -/
theorem exec_comph_completes {s : State} (hready : s.istate = .ready) (hfamily : s.family ≠ .U)
    (hfine : resValid Res.TFINE s = true) (hraw : rawValid Raw.H s = true) :
    exec .comph s = .next (respond 0 (writeRes Res.H (humidity s) s)) := by
  rw [exec_comph, fineTests_pass hready hfamily hfine hraw, complete_ok]

/-! ### ALTFN: the integer tests are the real comparisons -/

/-- The power n turns a multiple of a rational power into a ratio of integers (R161). -/
theorem scaledPower_pow {c p q m n : ℕ} (hn : n ≠ 0) :
    ((c : ℝ) * ((p : ℝ) / q) ^ ((m : ℝ) / n)) ^ n = c ^ n * p ^ m / q ^ m := by
  have hbase : (0 : ℝ) ≤ (p : ℝ) / q := by positivity
  have hpower : (((p : ℝ) / q) ^ ((m : ℝ) / n)) ^ n = ((p : ℝ) / q) ^ m := by
    rw [← Real.rpow_mul_natCast hbase, div_mul_cancel₀ _ (Nat.cast_ne_zero.2 hn), Real.rpow_natCast]
  rw [mul_pow, hpower, div_pow, mul_div_assoc]

/-- A comparison with `c · (p/q)^(m/n)` is one of integers: raise both sides to the power n. -/
theorem natCast_le_scaledPower_iff {c p q m n k : ℕ} (hn : n ≠ 0) (hq : 0 < q) :
    (k : ℝ) ≤ c * ((p : ℝ) / q) ^ ((m : ℝ) / n) ↔ k ^ n * q ^ m ≤ c ^ n * p ^ m := by
  have hqm : (0 : ℝ) < (q : ℝ) ^ m := by positivity
  rw [← pow_le_pow_iff_left₀ (by positivity) (by positivity) hn, scaledPower_pow hn, le_div_iff₀ hqm]
  exact_mod_cast Iff.rfl

theorem scaledPower_le_natCast_iff {c p q m n k : ℕ} (hn : n ≠ 0) (hq : 0 < q) :
    c * ((p : ℝ) / q) ^ ((m : ℝ) / n) ≤ (k : ℝ) ↔ c ^ n * p ^ m ≤ k ^ n * q ^ m := by
  have hqm : (0 : ℝ) < (q : ℝ) ^ m := by positivity
  rw [← pow_le_pow_iff_left₀ (by positivity) (by positivity) hn, scaledPower_pow hn, div_le_iff₀ hqm]
  exact_mod_cast Iff.rfl

/-- `4433000 · (p/q)^0.1903`, which ALTFN takes from 4433000 (R161). -/
noncomputable def altPower (p q : ℕ) : ℝ := 4433000 * ((p : ℝ) / q) ^ (0.1903 : ℝ)

theorem altPower_eq (p q : ℕ) :
    altPower p q = (4433000 : ℕ) * ((p : ℝ) / q) ^ (((1903 : ℕ) : ℝ) / (10000 : ℕ)) := by
  have hexponent : (0.1903 : ℝ) = ((1903 : ℕ) : ℝ) / (10000 : ℕ) := by norm_num
  have hscale : ((4433000 : ℕ) : ℝ) = 4433000 := Nat.cast_ofNat
  rw [altPower, hexponent, hscale]

theorem altPower_nonneg (p q : ℕ) : 0 ≤ altPower p q := by
  unfold altPower; positivity

theorem altBelow_iff {p q : ℕ} (hq : 0 < q) (k : ℕ) : altBelow p q k = true ↔ (k : ℝ) ≤ altPower p q := by
  rw [altPower_eq, natCast_le_scaledPower_iff (by decide) hq, altBelow, decide_eq_true_iff]

theorem altAbove_iff {p q : ℕ} (hq : 0 < q) (k : ℕ) : altAbove p q k = true ↔ altPower p q ≤ (k : ℝ) := by
  rw [altPower_eq, scaledPower_le_natCast_iff (by decide) hq, altAbove, decide_eq_true_iff]

/-- A kept free value is within the bound: a negative lower end is below every power. -/
theorem abs_le_one_of_altWithin {p q : ℕ} (hq : 0 < q) {z : ℤ} (h : altWithin p q z = true) :
    |(z : ℝ) - (4433000 - altPower p q)| ≤ 1 := by
  have htol : (Config.altTol : ℤ) = 1 := rfl
  rw [altWithin, htol, Bool.and_eq_true, Bool.and_eq_true, decide_eq_true_iff, altBelow_iff hq, altAbove_iff hq] at h
  obtain ⟨hbelow, hnonneg, habove⟩ := h
  have hlow : ((4433000 - z - 1 : ℤ) : ℝ) ≤ altPower p q :=
    le_trans (by exact_mod_cast Int.self_le_toNat _) hbelow
  have hhigh : altPower p q ≤ ((4433000 - z + 1 : ℤ) : ℝ) := by
    rw [← Int.toNat_of_nonneg hnonneg]
    exact_mod_cast habove
  push_cast at hlow hhigh
  rw [abs_le]
  constructor <;> linarith

/-! ### ALTFN: the search -/

/-- The search keeps the power between its result and the next number. -/
theorem altRoot_spec {p q : ℕ} (hq : 0 < q) (n : ℕ) : ∀ k : ℕ, (k : ℝ) ≤ altPower p q →
    altPower p q < k + 2 ^ n → (altRoot p q n k : ℝ) ≤ altPower p q ∧ altPower p q < altRoot p q n k + 1 := by
  induction n with
  | zero =>
    intro k hlow hhigh
    exact ⟨hlow, by simpa [altRoot] using hhigh⟩
  | succ n ih =>
    intro k hlow hhigh
    rw [altRoot]
    by_cases hbit : altBelow p q (k + 2 ^ n) = true
    case pos =>
      rw [if_pos hbit]
      refine ih _ ((altBelow_iff hq _).1 hbit) ?_
      push_cast
      rw [pow_succ] at hhigh
      linarith
    case neg =>
      rw [if_neg hbit]
      refine ih k hlow ?_
      rw [altBelow_iff hq, not_le] at hbit
      exact_mod_cast hbit

/-- The power is below 2^29 on R161's domain: `(2^32)^0.1903 ≤ (100^5)^(1/5) = 100`. -/
theorem altPower_lt {p q : ℕ} (hp : p ≤ 2 ^ 32 - 1) (hq : 0 < q) : altPower p q < 2 ^ 29 := by
  have hratio : (p : ℝ) / q ≤ 100 ^ 5 := by
    have hp' : (p : ℝ) ≤ 2 ^ 32 := by exact_mod_cast hp.trans (Nat.sub_le _ _)
    have hq' : (1 : ℝ) ≤ q := by exact_mod_cast hq
    rw [div_le_iff₀ (by positivity)]
    linarith
  have hpower : ((p : ℝ) / q) ^ (0.1903 : ℝ) ≤ 100 :=
    calc ((p : ℝ) / q) ^ (0.1903 : ℝ)
        ≤ ((100 : ℝ) ^ 5) ^ (0.1903 : ℝ) := Real.rpow_le_rpow (by positivity) hratio (by norm_num)
      _ ≤ ((100 : ℝ) ^ 5) ^ (((5 : ℕ) : ℝ)⁻¹) := Real.rpow_le_rpow_of_exponent_le (by norm_num) (by norm_num)
      _ = 100 := Real.pow_rpow_inv_natCast (by norm_num) (by norm_num)
  rw [altPower]
  linarith

/-- The value that stands in for a free value outside the bound is within it (log entry 6). -/
theorem altSample_within {p q : ℕ} (hp : p ≤ 2 ^ 32 - 1) (hq : 0 < q) :
    |((altSample p q).toInt : ℝ) - (4433000 - altPower p q)| ≤ 1 := by
  have hpower := altPower_lt hp hq
  obtain ⟨hlow, hhigh⟩ := altRoot_spec hq 29 0 (by simpa using altPower_nonneg p q) (by simpa using hpower)
  have hroot : altRoot p q 29 0 < 2 ^ 29 := by exact_mod_cast hlow.trans_lt hpower
  have hvalue : (altSample p q).toInt = 4433000 - (altRoot p q 29 0 : ℤ) := by
    rw [altSample, BitVec.toInt_ofInt]
    exact Int.bmod_eq_of_le (by omega) (by omega)
  rw [hvalue, abs_le]
  push_cast
  constructor <;> linarith

/-- ALTFN is within the bound whatever the free value is (R161). -/
theorem altFn_within {p den slp : ℕ} (hp : p ≤ 2 ^ 32 - 1) (hq : 0 < den * slp) :
    |((altFn p den slp).toInt : ℝ) - (4433000 - altPower p (den * slp))| ≤ 1 := by
  rw [altFn]
  split
  case isTrue hwithin => exact abs_le_one_of_altWithin hq hwithin
  case isFalse => exact altSample_within hp hq

end Sys2Proof.Machine

namespace Sys2Proof.Proofs

open Sys2Proof.Machine Sys2Proof.Safety

/-- Settles O38: the values written are those of `temperature_toInt`, and the three tests stop in their order. -/
theorem comptRule : Obligations.ComptRule := by
  intro s
  rw [exec_compt]
  refine ⟨fun hready hfamily hraw r hr => ?completes, fun hstop => ?faults⟩
  case completes =>
    rw [temperature_toInt] at hr
    subst hr
    rw [require_pos hready, require_pos hfamily, require_pos hraw, complete_ok, resWritten_toInt, resWritten_toInt]
    rfl
  case faults =>
    rw [require_stops Iff.rfl fun hready => require_stops not_not fun hfamily =>
      require_neg fun hraw => hstop ⟨hready, hfamily, hraw⟩]
    rfl

/-- Settles O39: the family's formula is `pressure`, and COMPP's tests are `fineTests`. -/
theorem comppRule : Obligations.ComppRule := by
  intro s
  refine ⟨fun hready hfine hraw => ⟨fun hA => ?familyA, fun hB => ?familyB⟩, fun hstop => ?faults⟩
  case familyA => rw [exec_compp_completes hready (by simp [hA]) hfine hraw, resWritten_eq, pressure_familyA hA]
  case familyB => rw [exec_compp_completes hready (by simp [hB]) hfine hraw, resWritten_eq, pressure_familyB hB]
  case faults => rw [exec_compp, fineTests_stop hstop, complete_error, faulted_eq_raise]

/-- Settles O40: the family's formula is `humidity`, and COMPH's tests are `fineTests`. -/
theorem comphRule : Obligations.ComphRule := by
  intro s
  refine ⟨fun hready hfine hraw => ⟨fun hA => ?familyA, fun hB => ?familyB⟩, fun hstop => ?faults⟩
  case familyA => rw [exec_comph_completes hready (by simp [hA]) hfine hraw, humidity_familyA hA, resWritten_toInt]
  case familyB => rw [exec_comph_completes hready (by simp [hB]) hfine hraw, humidity_familyB hB, resWritten_toInt]
  case faults => rw [exec_comph, fineTests_stop hstop, complete_error, faulted_eq_raise]

/-- Settles O42: the integer tests that keep or replace the free value are the real bound. -/
theorem altfnWithinTolerance : Obligations.AltfnWithinTolerance := by
  intro p den slp _ hp hden hslp _
  have hq : 0 < den * slp := Nat.mul_pos (by omega) hslp
  have hformula : (4433000 : ℝ) * (1 - ((p : ℝ) / (den * slp)) ^ (0.1903 : ℝ)) = 4433000 - altPower p (den * slp) := by
    rw [altPower, Nat.cast_mul]; ring
  rw [hformula]
  exact altFn_within hp hq

/-- Settles O41: the divisor is `altDen`, and of the five tests the two for E_INVALID stop alike. -/
theorem altRule : Obligations.AltRule := by
  rintro s den rfl
  have hzero : s.res[Res.P] ≠ 0 ↔ s.res[Res.P].toNat ≠ 0 := not_congr BitVec.toNat_eq
  rw [exec_alt]
  refine ⟨fun hready hfamily hres hslp hp => ?completes, fun hstop => ?faults⟩
  case completes =>
    rw [require_pos hready, require_pos hfamily, require_pos hres, require_pos hslp, require_pos (hzero.2 hp),
      complete_ok, resWritten_toInt, altDen]
  case faults =>
    rw [require_stops Iff.rfl fun hready => require_stops not_not fun hfamily =>
      require_stops (Bool.not_eq_true _).to_iff fun hres => require_stops (Bool.not_eq_true _).to_iff fun hslp =>
      require_neg fun hp => hstop ⟨hready, hfamily, hres, hslp, hzero.1 hp⟩, complete_error, faulted_eq_raise, ite_or]

end Sys2Proof.Proofs
end


section
/-! PROOFS. Gas, heater and ultraviolet (43_comp_gas_uv.md): the tests of GASRES, HEATRES, HEATDUR and UVI in their
order, and the values they write (R180 to R187). -/

namespace Sys2Proof

/-- The word of `HEATRES imm` (R183). -/
theorem encode_heatres (imm : BitVec 20) : encode (.heatres imm) = 0x94000000 ||| imm.setWidth 32 :=
  append_eq_or_setWidth (0x25#6 ++ 0#6) imm

/-- The word of `HEATDUR imm` (R185). -/
theorem encode_heatdur (imm : BitVec 20) : encode (.heatdur imm) = 0x98000000 ||| imm.setWidth 32 :=
  append_eq_or_setWidth (0x26#6 ++ 0#6) imm

/-- The word of `UVI` and `UVI.D` (R187). -/
theorem encode_uvi (d : Bool) : encode (.uvi d) = 0x9C000000 ||| (BitVec.ofBool d).setWidth 32 :=
  append_eq_or_setWidth (0x27#6 ++ 0#25) (BitVec.ofBool d)

end Sys2Proof

namespace Sys2Proof.Machine

open Sys2Proof.Safety

/-! ### Tests in a row -/

/-- Two tests that raise the same fault are one test. -/
theorem require_require {c d : Prop} [Decidable c] [Decidable d] {e : ErrCode} {k : Except ErrCode State} :
    require c e (require d e k) = require (c ∧ d) e k := by
  by_cases hc : c
  case pos => rw [require_pos hc]; simp only [hc, true_and]
  case neg => rw [require_neg hc, require_neg fun hcd => hc hcd.1]

/-- What all four commands test first: Ready, and the one family that has the sensor (R181, R183, R185, R187). -/
def familyTests (f : Family) (s : State) (rest : Except ErrCode State) : Except ErrCode State :=
  require (s.istate = .ready) .notReady <|
  require (s.family = f) .family rest

theorem familyTests_pass {f : Family} {s : State} {rest : Except ErrCode State} (hready : s.istate = .ready)
    (hfamily : s.family = f) : familyTests f s rest = rest := by
  rw [familyTests, require_pos hready, require_pos hfamily]

/-- Where the two tests hold, what follows them stops with `e`. -/
theorem familyTests_stop {f : Family} {s : State} {rest : Except ErrCode State} {e : ErrCode}
    (hrest : s.istate = .ready → s.family = f → rest = .error e) :
    familyTests f s rest =
      .error (if s.istate ≠ .ready then .notReady else if s.family ≠ f then .family else e) :=
  require_stops Iff.rfl fun hready => require_stops Iff.rfl fun hfamily => hrest hready hfamily

/-! ### The rules as equations -/

/-- GASRES (R181). -/
theorem exec_gasres (s : State) : exec .gasres s = complete 0x90000000 s
    (familyTests .B s <|
     require (resValid Res.T s = true) .noFine <|
     require (rawValid Raw.G s = true ∧ rawValid Raw.GRANGE s = true) .invalid <|
     .ok (respond 0 (writeRes Res.G (gasResistance s.raw[Raw.G] s.raw[Raw.GRANGE] s.cal[Cal.RSE]) s))) := rfl

/-- `HEATRES imm` (R183). -/
theorem exec_heatres (imm : BitVec 20) (s : State) : exec (.heatres imm) s = complete (encode (.heatres imm)) s
    (familyTests .B s <|
     require (resValid Res.T s = true) .noFine <|
     .ok (respond 0 (writeRes Res.HRES
       (heaterByte (heatTarget imm) s.res[Res.T] s.cal[Cal.G1] s.cal[Cal.G2] s.cal[Cal.G3] s.cal[Cal.RHR]
         s.cal[Cal.RHV]) s))) := rfl

/-- `HEATDUR imm` (R185). -/
theorem exec_heatdur (imm : BitVec 20) (s : State) : exec (.heatdur imm) s = complete (encode (.heatdur imm)) s
    (familyTests .B s (.ok (respond 0 (writeRes Res.HDUR (durationByte imm) s)))) := rfl

/-- `UVI` and `UVI.D`: the tests of the channels are one test, since both raise E_INVALID (R187). -/
theorem exec_uvi (d : Bool) (s : State) : exec (.uvi d) s = complete (encode (.uvi d)) s
    (familyTests .U s <|
     require ((rawValid Raw.UVA s = true ∧ rawValid Raw.UVB s = true ∧ rawValid Raw.UVC1 s = true
       ∧ rawValid Raw.UVC2 s = true) ∧ (d = true → rawValid Raw.UVD s = true)) .invalid <|
     .ok (respond 0
       (writeUv (uvChannelA s.raw[Raw.UVA] s.raw[Raw.UVC1] s.raw[Raw.UVC2] (darkValue d s))
         (uvChannelB s.raw[Raw.UVB] s.raw[Raw.UVC1] s.raw[Raw.UVC2] (darkValue d s)) s))) := by
  rw [← require_require]; rfl

/-! ### The values written -/

/-- A 64-bit value is stored as its low 32 bits (R9, R13). -/
theorem u32_toInt_eq_lo32 (x : BitVec 64) : Formulas.u32 x.toInt = lo32 x := by
  rw [← Laws.u32_w32, ← Laws.toInt_lo32, Laws.u32_toInt]

/-- The dark value enters the block signed (R187). -/
theorem darkValue_toInt (d : Bool) (s : State) :
    (darkValue d s).toInt = if d then Formulas.rawS s Raw.UVD else 0 := by
  cases d <;> rfl

/-- The three writes of UVI, from the signed values of its two channels (R187). -/
theorem respond_writeUv (a b : BitVec 64) (s : State) : respond 0 (writeUv a b s) =
    resWritten Res.UVI (Formulas.uvI a.toInt b.toInt) (resWritten Res.UVB b.toInt (resWritten Res.UVA a.toInt s)) := by
  rw [resWritten_eq, resWritten_eq, resWritten_eq, Laws.uvIndex_u32, u32_toInt_eq_lo32, u32_toInt_eq_lo32]
  rfl

/-- Below the sentinel the loop of HEATDUR divides at most once, so its byte loses at most 3 ms (R185). -/
theorem heatdur_bound {n d f : ℕ} (hn : n < 252) (hbyte : Formulas.heatdur n = d + 64 * f) (hd : d < 64) :
    d * 4 ^ f ≤ n ∧ n ≤ d * 4 ^ f + 3 := by
  rw [Formulas.heatdur, if_neg (Nat.not_le_of_lt hn)] at hbyte
  by_cases hdivides : n > 63
  case pos =>
    rw [if_pos hdivides] at hbyte
    obtain ⟨rfl, rfl⟩ : d = n / 4 ∧ f = 1 := by omega
    omega
  case neg =>
    rw [if_neg hdivides] at hbyte
    obtain ⟨rfl, rfl⟩ : d = n ∧ f = 0 := by omega
    omega

end Sys2Proof.Machine

namespace Sys2Proof.Proofs

open Sys2Proof.Machine Sys2Proof.Safety

/-- Settles O43: the value is that of `gasResistance_u32`, and two more tests follow `familyTests`. -/
theorem gasresRule : Obligations.GasresRule := by
  intro s
  rw [exec_gasres]
  refine ⟨fun hready hfamily htemp hgas hrange => ?completes, fun hstop => ?faults⟩
  case completes =>
    rw [familyTests_pass hready hfamily, require_pos htemp, require_pos ⟨hgas, hrange⟩, complete_ok, resWritten_eq,
      ← Laws.gasResistance_u32]
    rfl
  case faults =>
    rw [familyTests_stop fun hready hfamily => require_stops (Bool.not_eq_true _).to_iff fun htemp =>
      require_neg fun hraw => hstop ⟨hready, hfamily, htemp, hraw⟩, complete_error, faulted_eq_raise]

/-- Settles O44: the value is that of `heaterByte_u32`, and one more test follows `familyTests`. -/
theorem heatresRule : Obligations.HeatresRule := by
  intro imm s
  rw [exec_heatres, ← encode_heatres]
  refine ⟨fun hready hfamily htemp => ?completes, fun hstop => ?faults⟩
  case completes =>
    rw [familyTests_pass hready hfamily, require_pos htemp, complete_ok, resWritten_eq, ← Laws.heaterByte_u32]
    rfl
  case faults =>
    rw [familyTests_stop fun hready hfamily => require_neg fun htemp => hstop ⟨hready, hfamily, htemp⟩,
      complete_error, faulted_eq_raise]

/-- Settles O45: the value is that of `durationByte_eq`, `heatdur_bound` bounds it; no test follows `familyTests`. -/
theorem heatdurRule : Obligations.HeatdurRule := by
  intro imm s
  rw [exec_heatdur, ← encode_heatdur]
  refine ⟨fun hready hfamily => ?completes, fun hbelow d f => heatdur_bound hbelow, fun hstop => ?faults⟩
  case completes => rw [familyTests_pass hready hfamily, complete_ok, resWritten_eq, Laws.durationByte_eq]
  case faults =>
    rw [familyTests_stop (e := .family) fun hready hfamily => absurd ⟨hready, hfamily⟩ hstop, ite_self,
      complete_error, faulted_eq_raise]

/-- Settles O46: the two channels have the values of `uvChannelA_toInt` and `uvChannelB_toInt`, and one test of all
needed channels follows `familyTests`. -/
theorem uviRule : Obligations.UviRule := by
  intro d s a100 b100 dk hdk ha hb
  rw [exec_uvi, ← encode_uvi]
  refine ⟨fun hready hfamily hA hB hC1 hC2 hD => ?completes, fun hstop => ?faults⟩
  case completes =>
    rw [← darkValue_toInt] at hdk
    subst hdk ha hb
    rw [familyTests_pass hready hfamily, require_pos ⟨⟨hA, hB, hC1, hC2⟩, hD⟩, complete_ok, respond_writeUv,
      Laws.uvChannelA_toInt, Laws.uvChannelB_toInt]
    rfl
  case faults =>
    rw [familyTests_stop fun hready hfamily => require_neg fun ⟨⟨hA, hB, hC1, hC2⟩, hD⟩ =>
      hstop ⟨hready, hfamily, hA, hB, hC1, hC2, hD⟩, complete_error, faulted_eq_raise]

end Sys2Proof.Proofs
end


section
/-! PROOFS. Exceptions (60_exceptions.md): the words that run under the latch (R205), fault entry (R204), and the
tests of every command as the fault tests of R203. -/

namespace Sys2Proof.Safety

open Sys2Proof.Machine

/-! ### The front end (R203 points 1 and 2, R205) -/

/-- A word that decodes is a legal command's (R78). -/
theorem wf_of_decode {w : Word} {i : Instr} (h : decode w = .ok i) : i.wf = true := by
  obtain ⟨k, hk, rfl⟩ := decode_eq_ok_iff_accepts.1 h
  obtain ⟨-, -, hwf⟩ := (Format.accepts_iff (formatOf_hasBits k) (formatOf_describes k) w).1 hk
  exact hwf

/-- A decoded command that the latch does not hold back runs by its own rule (R203). -/
theorem step_runs {s : State} {w : Word} {rest : List Word} {i : Instr} (hcmds : s.cmds = w :: rest)
    (hlatch : s.fault = false ∨ latchAccepts w = true) (hi : decode w = .ok i) :
    step s = exec i { s with cmds := rest } := by
  have hrun : latched w { s with cmds := rest } = false := by
    rcases hlatch with hfault | haccepts
    · simp [latched, hfault]
    · simp [latched, haccepts]
  simp only [step, takeCommand_cons hcmds, hrun, hi]
  rfl

/-- The words of RD of 61..68 decode to it (R73). -/
theorem decode_rdSystem : ∀ n : BitVec 7, 61 ≤ n.toNat → n.toNat ≤ 68 →
    decode (0x18000000 ||| n.setWidth 32) = .ok (.rd n) := by
  decide

/-- A word the latch lets through is a command that makes no test, so it answers `ok` in every state (R205). -/
theorem exists_answersOk_of_latchAccepts {w : Word} (h : latchAccepts w = true) :
    ∃ i, decode w = .ok i ∧ ∀ s, ∃ t, exec i s = .next t ∧ answersOk t := by
  rcases (latchAccepts_iff w).1 h with rfl | rfl | ⟨n, hlo, hhi, rfl⟩
  · exact ⟨.reset, rfl, fun s => ⟨_, exec_reset s, 0, rfl⟩⟩
  · exact ⟨.errclr, rfl, fun s => ⟨_, exec_errclr s, 0, rfl⟩⟩
  · obtain ⟨r, hr⟩ := exists_sysRegOf hlo hhi
    exact ⟨.rd n, decode_rdSystem n hlo hhi, fun s => ⟨_, exec_rd_sys hr s, sysValue r s, rfl⟩⟩

/-- While FAULT = 1 a word is ignored or answered `ok`, never with a fault (R205, R206). -/
theorem resp_ne_fault_of_fault {s t : State} {w : Word} {rest : List Word} (hfault : s.fault = true)
    (hcmds : s.cmds = w :: rest) (hstep : step s = .next t) (e : ErrCode) : t.resp ≠ some (.fault e) := by
  by_cases haccepts : latchAccepts w = true
  case pos =>
    obtain ⟨i, hi, hok⟩ := exists_answersOk_of_latchAccepts haccepts
    obtain ⟨u, hexec, d, hd⟩ := hok { s with cmds := rest }
    rw [step_runs hcmds (.inr haccepts) hi, hexec] at hstep
    cases hstep
    simp [hd]
  case neg =>
    rw [step_latched hfault hcmds (by simpa using haccepts)] at hstep
    cases hstep
    simp

/-! ### The tests of R203 in a row -/

/-- The order of the tests, as `Option.or`. -/
theorem firstFault_eq_or (i : Instr) (s : State) : firstFault i s =
    (stateFault i s).or ((familyFault i s).or ((rangeFault i).or ((bufferFault i s).or ((sourceFault i s).or
      ((onceFault i s).or ((domainFault i s).or (completenessFault i s))))))) := by
  simp only [firstFault, Option.orElse_eq_orElse, Option.orElse_eq_or]

/-- The tests do not look at the command port (R28). -/
theorem firstFault_withCmds (i : Instr) (s : State) (rest : List Word) :
    firstFault i { s with cmds := rest } = firstFault i s := rfl

/-- E_NOFINE comes before E_INVALID (R203 point 6). -/
theorem sourceFault_eq_or (i : Instr) (s : State) : sourceFault i s =
    (if ∀ n ∈ fineSources i, validReg n s = true then none else some ErrCode.noFine).or
      (if ∀ n ∈ otherSources i, validReg n s = true then none else some ErrCode.invalid) := by
  unfold sourceFault
  split <;> rfl

/-- Point 5 of R203 and point 6 for cells are the source check (R121). -/
theorem outcome_sourceCheck (i : Instr) (s : State) (f : Option ErrCode) (t : State) :
    outcome ((rangeFault i).or ((bufferFault i s).or f)) t = sourceCheck (sources i) s (outcome f t) := by
  simp only [rangeFault, bufferFault, sourceCheck, outcome_ite_or, Config.bufSize, Nat.lt_succ_iff, Memory.valid_iff]

/-! ### Control commands -/

theorem outcome_calbegin (fam : BitVec 2) (s t : State) : outcome (firstFault (.calbegin fam) s) t =
    require (s.istate = .uninitialized) .seq (.ok t) := by
  rw [firstFault_eq_or, ← outcome_ite, ← Option.or_none (o := ite _ _ _)]
  rfl

/-- Point 9 of R203 is CALCOMMIT's comparison of the two maps (R102). -/
theorem outcome_calcommit (s t : State) : outcome (firstFault .calcommit s) t =
    require (s.istate = .fetching) .seq (require (s.calV = required s.family) .calPartial (.ok t)) := by
  simp only [firstFault_eq_or, calV_eq_required_iff, ← outcome_ite, ← outcome_ite_or]
  rfl

theorem outcome_cycle (s t : State) : outcome (firstFault .cycle s) t =
    require (s.istate = .ready) .notReady (.ok t) := by
  rw [firstFault_eq_or, ← outcome_ite, ← Option.or_none (o := ite _ _ _)]
  rfl

theorem outcome_rd {n : BitVec 7} {r : RegSel} (hn : n.toNat = r.number) (s t : State) :
    outcome (firstFault (.rd n) s) t = require (r.valid s = true) .invalid (.ok t) := by
  have hfirst : firstFault (.rd n) s =
      (if ∀ m ∈ [n.toNat], validReg m s = true then none else some ErrCode.invalid).or none := firstFault_eq_or _ s
  rw [hfirst, Option.or_none, outcome_ite, hn]
  simp only [List.forall_mem_singleton, validReg_number]

theorem outcome_setslp (imm : BitVec 20) (s t : State) : outcome (firstFault (.setslp imm) s) t =
    require (imm ≠ 0) .domain (.ok t) := by
  have hfirst : firstFault (.setslp imm) s =
      (if imm.toNat = 0 then some ErrCode.domain else none).or none := firstFault_eq_or _ s
  rw [hfirst, Option.or_none, ← ite_not, outcome_ite]
  simp [BitVec.toNat_eq]

/-- The operand of a legal CALBEGIN names a family (R72). -/
theorem exists_familyOf {fam : BitVec 2} (h : (Instr.calbegin fam).wf = true) : ∃ f, familyOf fam = some f := by
  rw [← Option.isSome_iff_exists]
  revert fam
  decide

/-! ### DECGAS -/

/-- DECGAS makes each test of a decode command for both of its destinations (R132). -/
theorem outcome_decgas (a : BitVec 6) (s t : State) : outcome (firstFault (.decgas a) s) t =
    require (s.istate = .ready) .notReady
      (require (inRawSet Raw.G s = true ∧ inRawSet Raw.GRANGE s = true) .family
        (sourceCheck [a.toNat, a.toNat + 1] s
          (require (rawValid Raw.G s = false ∧ rawValid Raw.GRANGE s = false) .rawSet (.ok t)))) := by
  have hfirst : firstFault (.decgas a) s =
      (if s.istate = .ready then none else some ErrCode.notReady).or
      ((if ∀ d ∈ destinations (.decgas a), d ∈ Formulas.req s.family ++ Formulas.rawset s.family then none
        else some ErrCode.family).or
      ((rangeFault (.decgas a)).or ((bufferFault (.decgas a) s).or
      ((if ∀ d ∈ destinations (.decgas a), validReg d s = false then none else some ErrCode.rawSet).or none)))) :=
    firstFault_eq_or _ s
  have hfamily : (∀ d ∈ destinations (.decgas a), d ∈ Formulas.req s.family ++ Formulas.rawset s.family) ↔
      inRawSet Raw.G s = true ∧ inRawSet Raw.GRANGE s = true := by
    rw [← mem_registers_raw_iff, ← mem_registers_raw_iff]
    exact List.forall_mem_cons.trans (and_congr_right fun _ => List.forall_mem_singleton)
  have honce : (∀ d ∈ destinations (.decgas a), validReg d s = false) ↔
      rawValid Raw.G s = false ∧ rawValid Raw.GRANGE s = false :=
    List.forall_mem_cons.trans (and_congr_right fun _ => List.forall_mem_singleton)
  simp only [hfirst, hfamily, honce, Option.or_none, outcome_ite_or, outcome_ite, outcome_sourceCheck]
  rfl

/-! ### Compensation commands -/

/-- The tests of a compensation command, in the order of R203: `c` says that the family has the command, `fine` and
`other` are the registers it needs valid, `domain` is its domain test. -/
theorem outcome_of_compensation {i : Instr} {s : State} {c : Prop} [Decidable c] {fine other : List Nat}
    {domain : Option ErrCode} (hcomp : isCompensation i = true)
    (hfamily : familyFault i s = if c then none else some .family) (hfine : fineSources i = fine)
    (hother : otherSources i = other) (hdomain : domainFault i s = domain) (t : State) :
    outcome (firstFault i s) t =
      require (s.istate = .ready) .notReady
        (require c .family
          (require (∀ n ∈ fine, validReg n s = true) .noFine
            (require (∀ n ∈ other, validReg n s = true) .invalid (outcome domain t)))) := by
  have hfirst : firstFault i s = (if s.istate = .ready then none else some ErrCode.notReady).or
      ((familyFault i s).or ((sourceFault i s).or ((domainFault i s).or none))) := by
    rw [firstFault_eq_or]
    cases i <;> cases hcomp <;> rfl
  simp only [hfirst, hfamily, sourceFault_eq_or, hfine, hother, hdomain, Option.or_none, Option.or_assoc,
    outcome_ite_or]

theorem outcome_compt (s t : State) : outcome (firstFault .compt s) t =
    require (s.istate = .ready) .notReady (require (s.family ≠ .U) .family
      (require (rawValid Raw.T s = true) .invalid (.ok t))) := by
  rw [outcome_of_compensation (i := .compt) (c := s.family ≠ .U) (fine := []) (other := [32]) (domain := none)
    rfl (ite_not ..).symm rfl rfl rfl]
  simp [validReg, rawValid, outcome]

theorem outcome_compp (s t : State) : outcome (firstFault .compp s) t = fineTests Raw.P s (.ok t) := by
  rw [outcome_of_compensation (i := .compp) (c := s.family ≠ .U) (fine := [48]) (other := [33]) (domain := none)
    rfl (ite_not ..).symm rfl rfl rfl]
  simp [fineTests, validReg, rawValid, resValid, outcome]

theorem outcome_comph (s t : State) : outcome (firstFault .comph s) t = fineTests Raw.H s (.ok t) := by
  rw [outcome_of_compensation (i := .comph) (c := s.family ≠ .U) (fine := [48]) (other := [34]) (domain := none)
    rfl (ite_not ..).symm rfl rfl rfl]
  simp [fineTests, validReg, rawValid, resValid, outcome]

theorem outcome_alt (s t : State) : outcome (firstFault .alt s) t =
    require (s.istate = .ready) .notReady (require (s.family ≠ .U) .family
      (require (resValid Res.P s = true) .invalid (require (s.slpV = true) .invalid
        (require (s.res[Res.P] ≠ 0) .domain (.ok t))))) := by
  rw [outcome_of_compensation (i := .alt) (c := s.family ≠ .U) (fine := []) (other := [50, 60])
    (domain := if s.res[Res.P].toNat ≠ 0 then none else some .domain)
    rfl (ite_not ..).symm rfl rfl (ite_not ..).symm, outcome_ite, require_require]
  simp [validReg, resValid, BitVec.toNat_eq]

theorem outcome_gasres (s t : State) : outcome (firstFault .gasres s) t =
    familyTests .B s (require (resValid Res.T s = true) .noFine
      (require (rawValid Raw.G s = true ∧ rawValid Raw.GRANGE s = true) .invalid (.ok t))) := by
  rw [outcome_of_compensation (i := .gasres) (c := s.family = .B) (fine := [49]) (other := [35, 36]) (domain := none)
    rfl rfl rfl rfl rfl]
  simp [familyTests, validReg, rawValid, resValid, outcome]

theorem outcome_heatres (imm : BitVec 20) (s t : State) : outcome (firstFault (.heatres imm) s) t =
    familyTests .B s (require (resValid Res.T s = true) .noFine (.ok t)) := by
  rw [outcome_of_compensation (i := .heatres imm) (c := s.family = .B) (fine := [49]) (other := []) (domain := none)
    rfl rfl rfl rfl rfl]
  simp [familyTests, validReg, resValid, outcome]

theorem outcome_heatdur (imm : BitVec 20) (s t : State) : outcome (firstFault (.heatdur imm) s) t =
    familyTests .B s (.ok t) := by
  rw [outcome_of_compensation (i := .heatdur imm) (c := s.family = .B) (fine := []) (other := []) (domain := none)
    rfl rfl rfl rfl rfl]
  simp [familyTests, outcome]

theorem outcome_uvi (d : Bool) (s t : State) : outcome (firstFault (.uvi d) s) t =
    familyTests .U s (require ((rawValid Raw.UVA s = true ∧ rawValid Raw.UVB s = true ∧ rawValid Raw.UVC1 s = true
      ∧ rawValid Raw.UVC2 s = true) ∧ (d = true → rawValid Raw.UVD s = true)) .invalid (.ok t)) := by
  rw [outcome_of_compensation (i := .uvi d) (c := s.family = .U) (fine := [])
    (other := if d then [37, 38, 39, 40, 41] else [37, 38, 39, 40]) (domain := none) rfl rfl rfl rfl rfl]
  cases d <;> simp [familyTests, validReg, rawValid, outcome, and_assoc]

/-! ### Every command -/

/-- What a legal command does is decided by the tests of R203: it raises the first fault, or answers `ok`. -/
def RunsTests (i : Instr) (s : State) : Prop :=
  ∃ d t, exec i s = complete (encode i) s (outcome (firstFault i s) (respond d t))

theorem runsTests_of_decodeForm {i : Instr} {dst : BitVec 6} {offs : List Nat}
    (hform : decodeForm i = some (dst, offs)) (hwf : i.wf = true) (s : State) : RunsTests i s := by
  obtain ⟨_, _, _, hd, -⟩ := exec_of_decodeForm hform hwf s
  rcases destOf_eq_some.1 hd with ⟨n, -, hn⟩ | ⟨-, k, -, hk⟩
  · obtain ⟨v, hexec⟩ := exec_of_decodeForm_cal hform hwf hn s
    exact ⟨0, writeCal n v s, by rw [hexec, decodeCal_eq_outcome hform hn]⟩
  · obtain ⟨v, hexec⟩ := exec_of_decodeForm_raw hform hwf hk s
    exact ⟨0, writeRaw k v s, by rw [hexec, decodeRaw_eq_outcome hform hk]⟩

theorem runsTests_of_wf {i : Instr} (hwf : i.wf = true) (s : State) : RunsTests i s := by
  cases i
  case reset | errclr | ldb => exact ⟨0, _, rfl⟩
  case calbegin fam =>
    obtain ⟨f, hf⟩ := exists_familyOf hwf
    exact ⟨0, _, by rw [exec_calbegin hf, outcome_calbegin]⟩
  case calcommit => exact ⟨0, _, by rw [exec_calcommit, outcome_calcommit]⟩
  case cycle => exact ⟨0, _, by rw [exec_cycle, outcome_cycle]⟩
  case rd n =>
    obtain ⟨r, hn⟩ := exists_number_of_rselReadable hwf
    exact ⟨_, _, by rw [exec_rd hn, outcome_rd hn]⟩
  case setslp imm => exact ⟨0, _, by rw [exec_setslp, outcome_setslp]⟩
  case dec8 | dec16le | dec16be | dec12hl | dec12ms | dec20 | decbf => exact runsTests_of_decodeForm rfl hwf s
  case decgas a => exact ⟨0, _, by rw [exec_decgas, outcome_decgas]; rfl⟩
  case compt => exact ⟨0, _, by rw [exec_compt, outcome_compt]; rfl⟩
  case compp => exact ⟨0, _, by rw [exec_compp, outcome_compp]; rfl⟩
  case comph => exact ⟨0, _, by rw [exec_comph, outcome_comph]; rfl⟩
  case alt => exact ⟨0, _, by rw [exec_alt, outcome_alt]; rfl⟩
  case gasres => exact ⟨0, _, by rw [exec_gasres, outcome_gasres]; rfl⟩
  case heatres imm => exact ⟨0, _, by rw [exec_heatres, outcome_heatres]⟩
  case heatdur imm => exact ⟨0, _, by rw [exec_heatdur, outcome_heatdur]⟩
  case uvi d => exact ⟨0, _, by rw [exec_uvi, outcome_uvi]⟩

/-- A legal command answers the first fault of R203, and `ok` when there is none. -/
theorem resp_of_firstFault {i : Instr} {s t : State} (hwf : i.wf = true) (hexec : exec i s = .next t) :
    (∀ e, firstFault i s = some e → t.resp = some (.fault e)) ∧ (firstFault i s = none → answersOk t) := by
  obtain ⟨d, u, htests⟩ := runsTests_of_wf hwf s
  rw [hexec] at htests
  refine ⟨fun e hfires => ?faults, fun hnone => ?completes⟩
  case faults =>
    rw [hfires] at htests
    cases htests
    rfl
  case completes =>
    rw [hnone] at htests
    cases htests
    exact ⟨d, rfl⟩

end Sys2Proof.Safety

namespace Sys2Proof.Proofs

open Sys2Proof.Machine Sys2Proof.Safety

/-- Settles O9: `latchAccepts_iff` names the words that run; every other word is ignored by `step_latched`. -/
theorem latchAcceptsExactlyThree : Obligations.LatchAcceptsExactlyThree := by
  intro s w rest hfault hcmds
  have accepted {i : Instr} := fun hw => step_runs (i := i) hcmds (.inr ((latchAccepts_iff w).2 hw))
  refine ⟨fun hw => ?reset, fun hw => ?errclr, fun n hlo hhi hw => ?rd, fun hreset herrclr hrd => ?ignored⟩
  case reset => exact accepted (.inl hw) (hw ▸ rfl)
  case errclr => exact accepted (.inr (.inl hw)) (hw ▸ rfl)
  case rd => exact accepted (.inr (.inr ⟨n, hlo, hhi, hw⟩)) (hw ▸ decode_rdSystem n hlo hhi)
  case ignored =>
    refine step_latched hfault hcmds (Bool.eq_false_iff.2 fun haccepts => ?_)
    rcases (latchAccepts_iff w).1 haccepts with hw | hw | ⟨n, hlo, hhi, hw⟩
    exacts [hreset hw, herrclr hw, hrd n hlo hhi hw]

/-- Settles O13: a command enters its fault, which writes only the latch, or completes and answers `ok`. -/
theorem faultEntryWritesOnlyTheLatch : Obligations.FaultEntryWritesOnlyTheLatch := by
  intro i s t e hexec hresp
  rcases exec_cases hexec with ⟨e', he', rfl⟩ | hcompletes
  · obtain rfl : e' = e := by simpa using hresp
    exact ⟨he', rfl⟩
  · obtain ⟨-, d, hok, -⟩ := hcompletes.answers
    cases hok.symm.trans hresp

/-- Settles O15: the latch, illegal words, and then the tests of the decoded command, which is legal. -/
theorem firstFaultInOrder : Obligations.FirstFaultInOrder := by
  intro s w rest hcmds
  obtain ⟨t, hstep⟩ := step_next s
  refine ⟨t, hstep, fun hfault => resp_ne_fault_of_fault hfault hcmds hstep, fun hfault hillegal => ?illegal,
    fun hfault i hi => ?legal⟩
  case illegal =>
    obtain ⟨hraise, -⟩ := illegalWordFaults.1 s w rest hcmds hillegal
    cases hstep.symm.trans (hraise hfault)
    rfl
  case legal =>
    rw [step_runs hcmds (.inl hfault) hi] at hstep
    rw [← firstFault_withCmds i s rest]
    exact resp_of_firstFault (wf_of_decode hi) hstep

end Sys2Proof.Proofs
end


section
/-! PROOFS. Encoding (30_encoding.md): a word spells a command exactly when it has the opcode, the zeros and the
operands of the command's format, so decoding and encoding are inverse to each other (R70 to R83). -/

namespace Sys2Proof

/-! ### Fields of a concatenation -/

/-- `w[lo+n-1 : lo] = x` (R8). -/
def HasField (w : Word) (lo : Nat) {n : Nat} (x : BitVec n) : Prop := bits w lo n = x

/-- Two neighbouring fields of a word are one field. -/
theorem bits_append_bits (w : Word) (lo m n : Nat) : bits w (lo + n) m ++ bits w lo n = bits w lo (m + n) := by
  refine BitVec.eq_of_getLsbD_eq fun i hi => ?_
  simp only [bits, BitVec.getLsbD_append, BitVec.getLsbD_extractLsb']
  by_cases hlow : i < n
  · simp [hlow, hi]
  · simp [hlow, hi, show i - n < m by omega, show lo + n + (i - n) = lo + i by omega]

/-- A word has a concatenation as a field exactly when it has both parts as fields. -/
theorem hasField_append {m n : Nat} {w : Word} {lo : Nat} {x : BitVec m} {y : BitVec n} :
    HasField w lo (x ++ y) ↔ HasField w (lo + n) x ∧ HasField w lo y := by
  simp only [HasField]
  rw [← bits_append_bits]
  refine ⟨fun h => ⟨?high, ?low⟩, fun ⟨hx, hy⟩ => hx ▸ hy ▸ rfl⟩
  case high => simpa [extract_append_high] using congrArg (BitVec.extractLsb' n m) h
  case low => simpa [extract_append_low] using congrArg (BitVec.extractLsb' 0 n) h

/-- The field of all 32 bits is the word. -/
theorem hasField_all {w x : Word} : HasField w 0 x ↔ w = x := by simp [HasField, bits]

/-- A field of one bit is a flag (R8). -/
theorem hasField_ofBool {w : Word} {lo : Nat} {s : Bool} : HasField w lo (BitVec.ofBool s) ↔ bit w lo = s := by
  have hbit : bits w lo 1 = BitVec.ofBool (bit w lo) := by
    refine BitVec.eq_of_toNat_eq ?_
    rw [toNat_ofBool, toNat_bit, toNat_bits, Nat.pow_one]
  rw [HasField, hbit]
  cases s <;> cases bit w lo <;> decide

/-- The field of the top six bits is the opcode (R70). -/
theorem hasField_opcode {w : Word} {op : BitVec 6} : HasField w 26 op ↔ opcodeOf w = op.toNat := BitVec.toNat_inj.symm

end Sys2Proof

namespace Sys2Proof.Safety

open Sys2Proof.Machine

/-! ### The word of a command -/

theorem rowOf_lt (i : Instr) : rowOf i < rows.length := by
  cases i <;> simp [rowOf, rows]

/-- The format of a command's row (R78). -/
def formatFor (i : Instr) : Format := formatOf ⟨rowOf i, rowOf_lt i⟩

/-- R70 to R79: a word spells a command exactly when it has the opcode and the zeros of the command's format, and the
format reads that command's operands from it. -/
theorem eq_encode_iff (w : Word) (i : Instr) :
    w = encode i ↔ opcodeOf w = (formatFor i).opcode ∧ (formatFor i).ZerosHold w ∧ (formatFor i).command w = i := by
  rw [← hasField_all]
  cases i
  all_goals
    simp only [encode, hasField_append, hasField_ofBool, and_assoc]
    simp only [Nat.reduceAdd, hasField_opcode]
    refine and_congr Iff.rfl ?_
    simp [HasField, Format.ZerosHold, formatFor, formatOf, rowOf, formats, formatN, formatI, formatD, formatD2,
      formatCalbegin, formatRd, formatLdb, formatDec20, formatDecbf, formatDecgas, formatUvi, and_assoc, and_comm,
      and_left_comm]

/-- The word of an instruction decodes exactly when the instruction is a legal command, and then to it. -/
theorem decode_encode_iff {i j : Instr} : decode (encode i) = .ok j ↔ i.wf = true ∧ i = j := by
  obtain ⟨hop, hzeros, hcommand⟩ := (eq_encode_iff (encode i) i).1 rfl
  rw [(formatOf_describes ⟨rowOf i, rowOf_lt i⟩).reads _ _ hop]
  rw [formatFor] at hzeros hcommand
  simp only [hcommand, hzeros, true_and]

/-- A word that decodes has the opcode, the zeros and the operands of its row's format (R79, R81). -/
theorem encode_of_decode {w : Word} {i : Instr} (h : decode w = .ok i) : encode i = w := by
  obtain ⟨k, hk, rfl⟩ := decode_eq_ok_iff_accepts.1 h
  obtain ⟨hop, hzeros, -⟩ := (Format.accepts_iff (formatOf_hasBits k) (formatOf_describes k) w).1 hk
  have hformat : formatFor ((formatOf k).command w) = formatOf k := congrArg formatOf (Fin.ext (rowOf_command k w))
  exact ((eq_encode_iff w _).2 (by rw [hformat]; exact ⟨hop, hzeros, rfl⟩)).symm

/-! ### Instructions that are no legal command -/

/-- A decode without a legal destination raises E_ILLEGAL (log entry 8). -/
theorem decodeTo_illegal {dst : BitVec 6} {sgn : Bool} (h : destLegal dst sgn = false) (offs : List Nat) (v : Word)
    (s : State) : decodeTo dst sgn offs v s = .error .illegal := by
  have hdest : destOf dst sgn = none := by
    rw [Option.eq_none_iff_forall_ne_some]
    exact fun d hd => absurd ((destLegal_iff dst sgn).2 ⟨d, hd⟩) (by simp [h])
  rw [decodeTo, hdest]

/-- CALBEGIN of the reserved family raises E_ILLEGAL (R72, log entry 8). -/
theorem exec_calbegin_illegal {fam : BitVec 2} (h : (Instr.calbegin fam).wf = false) (s : State) :
    exec (.calbegin fam) s = .next (raise .illegal (encode (.calbegin fam)) s) := by
  have hfamily : familyOf fam = none := by revert fam; decide
  have hexec : exec (.calbegin fam) s = execCalbegin fam s := rfl
  rw [hexec, execCalbegin, hfamily, complete_error]

/-- RD of a number that is not readable raises E_ILLEGAL (R73, log entry 8). -/
theorem exec_rd_illegal {n : BitVec 7} (h : (Instr.rd n).wf = false) (s : State) :
    exec (.rd n) s = .next (raise .illegal (encode (.rd n)) s) := by
  have hsel : regSelOf n = none := by revert n; decide
  have hexec : exec (.rd n) s = execRd n s := rfl
  rw [hexec, execRd, hsel, complete_error]

/-- DECBF raises E_ILLEGAL for a field beyond the byte and for its destination (R80, log entry 8). -/
theorem exec_decbf_illegal {dst : BitVec 6} {sgn : Bool} {lsb wm1 : BitVec 3} {a : BitVec 6}
    (h : (Instr.decbf dst sgn lsb wm1 a).wf = false) (s : State) :
    exec (.decbf dst sgn lsb wm1 a) s = .next (raise .illegal (encode (.decbf dst sgn lsb wm1 a)) s) := by
  by_cases hfield : lsb.toNat + wm1.toNat + 1 ≤ 8
  case pos =>
    have hdest : destLegal dst sgn = false := by simpa [Instr.wf, hfield] using h
    rw [exec_decbf dst sgn hfield, decodeTo_illegal hdest, complete_error]
  case neg =>
    have hexec : exec (.decbf dst sgn lsb wm1 a) s = execDecbf dst sgn lsb wm1 a s := rfl
    rw [hexec, execDecbf, require_neg hfield, complete_error]

end Sys2Proof.Safety

namespace Sys2Proof.Proofs

open Sys2Proof.Machine Sys2Proof.Safety

/-- Settles O2, by `decode_encode_iff`. -/
theorem decodeEncodeAgree : Obligations.DecodeEncodeAgree := fun _ hwf => decode_encode_iff.2 ⟨hwf, rfl⟩

/-- Settles O3: `wf_of_decode` and `encode_of_decode`. -/
theorem decodeDropsNoBit : Obligations.DecodeDropsNoBit := fun _ _ h => ⟨wf_of_decode h, encode_of_decode h⟩

/-- Settles O5: what decodes is legal, and with FAULT = 0 it runs. -/
theorem stepRunsTheDecodedCommand : Obligations.StepRunsTheDecodedCommand :=
  fun _ _ _ _ hfault hcmds hi => ⟨wf_of_decode hi, step_runs hcmds (.inl hfault) hi⟩

/-- Settles O8: only CALBEGIN, RD and the decode commands have illegal operands, and each tests its own. -/
theorem illFormedCommandsAreIllegal : Obligations.IllFormedCommandsAreIllegal := by
  intro i s hwf
  rw [faulted_eq_raise]
  cases i
  case calbegin => exact exec_calbegin_illegal hwf s
  case rd => exact exec_rd_illegal hwf s
  case decbf => exact exec_decbf_illegal hwf s
  case dec8 | dec16le | dec16be | dec12hl | dec12ms | dec20 =>
    exact congrArg (complete _ s) (decodeTo_illegal hwf _ _ s)
  all_goals cases hwf

/-- Settles O6: a legal instruction is decoded from its word and runs; the word of any other is illegal, as its meaning
is by O8. -/
theorem stepRunsTheEncodedCommand : Obligations.StepRunsTheEncodedCommand := by
  intro s i rest hfault hcmds
  rw [step_unlatched hfault hcmds]
  cases hdecode : decode (encode i) with
  | ok j =>
    obtain ⟨-, rfl⟩ := decode_encode_iff.1 hdecode
    rfl
  | error e =>
    have hwf : i.wf = false := by
      by_contra hlegal
      cases hdecode.symm.trans (decodeEncodeAgree i (by simpa using hlegal))
    rw [illFormedCommandsAreIllegal i _ hwf]
    rfl

end Sys2Proof.Proofs
end


section
/-! PROOFS. Decode commands: the order of the checks of a raw destination (R121, R124), and the range of what they leave
(R133). -/

namespace Sys2Proof.Machine

open Sys2Proof.Safety

/-! ### The values decode commands write -/

/-- The least and the greatest signed reading of a field of n bits (R11, R133). -/
def fieldRange (sgn : Bool) (n : Nat) : Int × Int := if sgn then (-2 ^ (n - 1), 2 ^ (n - 1) - 1) else (0, 2 ^ n - 1)

/-- x reads within r. -/
def Within (r : Int × Int) (x : Word) : Prop := r.1 ≤ x.toInt ∧ x.toInt ≤ r.2

/-- A field reads within its range, signed or not. -/
theorem within_widen {n : Nat} (sgn : Bool) (x : BitVec n) (hlt : n < 32) :
    Within (fieldRange sgn n) (widen sgn x) := by
  cases sgn
  case false =>
    have hx : (x.toNat : Int) < 2 ^ n := by exact_mod_cast x.isLt
    rw [Within, toInt_widen_unsigned x hlt]
    exact ⟨Int.natCast_nonneg _, Int.le_sub_one_of_lt hx⟩
  case true =>
    rw [Within, toInt_widen_signed x hlt.le]
    exact ⟨BitVec.le_toInt x, Int.le_sub_one_of_lt BitVec.toInt_lt⟩

/-- A decode command that completes has written one field, of at most 20 bits and of at most 16 when signed, whose range
is that of R133. -/
theorem Completes.decode {i : Instr} {dst : BitVec 6} {offs : List Nat} {s t : State}
    (hform : decodeForm i = some (dst, offs)) (h : Completes i s t) :
    ∃ (sgn : Bool) (n : Nat) (x : BitVec n), n ≤ 20 ∧ (sgn = true → n ≤ 16) ∧
      decodeRange i = fieldRange sgn n ∧ DecodeWrites dst sgn (widen sgn x) s t := by
  cases i <;> cases hform
  case decbf sgn lsb wm1 a =>
    obtain ⟨hfield, hwrites⟩ := h
    exact ⟨sgn, wm1.toNat + 1, _, by omega, fun _ => by omega, rfl, hwrites⟩
  case dec20 => exact ⟨false, _, _, by decide, nofun, rfl, h⟩
  all_goals exact ⟨_, _, _, by decide, fun _ => by decide, rfl, h⟩

/-- What a decode has written to a calibration register reads back. -/
theorem DecodeWrites.cal_eq {dst : BitVec 6} {sgn : Bool} {v : Word} {s t : State} (h : DecodeWrites dst sgn v s t)
    {n : Fin 26} (hn : dst.toNat = n.val) : t.cal[n] = v := by
  rcases h with ⟨i, hi, -, -, -, rfl⟩ | ⟨k, -, hk, -⟩
  · obtain rfl : i = n := Fin.ext (hi.symm.trans hn)
    simp
  · omega

/-- What a decode has written to a raw register reads back. -/
theorem DecodeWrites.raw_eq {dst : BitVec 6} {sgn : Bool} {v : Word} {s t : State} (h : DecodeWrites dst sgn v s t)
    {k : Fin 10} (hk : dst.toNat = 32 + k.val) : t.raw[k] = v := by
  rcases h with ⟨i, hi, -⟩ | ⟨m, -, hm, -, -, -, rfl⟩
  · omega
  · obtain rfl : m = k := Fin.ext (by omega)
    simp

end Sys2Proof.Machine

namespace Sys2Proof.Proofs

open Sys2Proof.Machine Sys2Proof.Safety

/-- Settles O36: a decode to a raw register is `decodeRaw`, whose tests stand in this order. -/
theorem rawDecodeChecks : Obligations.RawDecodeChecks := by
  intro i dst offs k s hwf hform hk
  obtain ⟨v, hexec⟩ := exec_of_decodeForm_raw hform hwf hk s
  rw [hexec, decodeRaw]
  refine ⟨fun hstate => ?notReady, fun hstate hset => ?family, fun hstate hset hfar => ?range,
    fun hstate hset hnear hempty => ?bufInvalid, fun hstate hset hnear hfull hvalid => ?rawSet⟩
  case notReady => rw [require_neg hstate]; rfl
  all_goals rw [require_pos hstate]
  case family => rw [require_neg (mt (inRawSet_iff k s).1 hset)]; rfl
  all_goals rw [require_pos ((inRawSet_iff k s).2 hset)]
  case range => rw [sourceCheck_far hfar]; rfl
  case bufInvalid => rw [sourceCheck_empty hnear hempty]; rfl
  case rawSet =>
    rw [sourceCheck_pass hnear (fun a ha => (Memory.valid_iff_ne_none s.buf a).2 (hfull a ha)),
      require_neg (by simp [hvalid])]; rfl

/-- Settles O37: a decode command writes one field, which reads within its range; DECGAS writes 10 and 4 bits. -/
theorem decodedValueRanges : Obligations.DecodedValueRanges := by
  refine ⟨fun i dst offs s t hform _ hexec hok => ?oneField, fun a s t hexec hok => ?gas⟩
  case oneField =>
    obtain ⟨sgn, n, x, hle, -, hrange, hwrites⟩ := (exec_answersOk hexec hok).decode hform
    have hwithin : Within (decodeRange i) (widen sgn x) := hrange ▸ within_widen sgn x (by omega)
    exact ⟨fun n hn => by rwa [Formulas.calS, hwrites.cal_eq hn], fun k hk => by rwa [Formulas.rawS, hwrites.raw_eq hk]⟩
  case gas =>
    obtain ⟨-, -, rfl, -⟩ := exec_answersOk hexec hok
    have hcount := within_widen false (gasCount (Memory.cell s.buf a.toNat) (Memory.cell s.buf (a.toNat + 1)))
      (by decide)
    have hgrange := within_widen false (gasRange (Memory.cell s.buf (a.toNat + 1))) (by decide)
    simpa [Formulas.rawS, getElem_set_fin] using ⟨hcount.1, hcount.2, hgrange.1, hgrange.2⟩

end Sys2Proof.Proofs
end


section
/-! PROOFS. The front end and the fault latch (60_exceptions.md), and the first command after reset (R231). -/

namespace Sys2Proof.Safety

open Sys2Proof.Machine

/-! ### The first command after reset -/

/-- In the reset state a decode command stops at its first test, for ISTATE (R123, R124). -/
theorem firstFault_reset_of_decodeForm {i : Instr} {dst : BitVec 6} {offs : List Nat}
    (hform : decodeForm i = some (dst, offs)) :
    firstFault i State.reset = some (if dst.toNat < 26 then .seq else .notReady) := by
  rw [firstFault_of_decodeForm hform, stateFault_of_decodeForm hform]
  split <;> rfl

theorem firstAnswer_of_decodeForm {i : Instr} {dst : BitVec 6} {offs : List Nat}
    (hform : decodeForm i = some (dst, offs)) :
    firstAnswer i = .fault (if dst.toNat < 26 then .seq else .notReady) := by
  rw [apply_ite Response.fault]
  cases i <;> cases hform <;> rfl

theorem firstAnswer_rd (n : BitVec 7) : firstAnswer (.rd n) = if 61 ≤ n.toNat then .ok 0 else .fault .invalid := rfl

theorem firstAnswer_setslp (imm : BitVec 20) :
    firstAnswer (.setslp imm) = if imm.toNat = 0 then .fault .domain else .ok 0 := rfl

/-- RD after reset: only the always readable registers are valid, and they read 0 (R39). -/
theorem exec_rd_reset {n : BitVec 7} (hwf : (Instr.rd n).wf = true) :
    ∃ t, exec (.rd n) State.reset = .next t ∧ t.resp = some (firstAnswer (.rd n)) := by
  obtain ⟨r, hn⟩ := exists_number_of_rselReadable hwf
  by_cases hsys : 61 ≤ n.toNat
  case pos =>
    obtain ⟨q, hq⟩ := exists_sysRegOf hsys (by simp [Instr.wf, rselReadable] at hwf; omega)
    exact ⟨_, exec_rd_sys hq _, by rw [firstAnswer_rd, if_pos hsys, sysValue_reset, respond_resp]⟩
  case neg =>
    have hvalid : r.valid State.reset = false := by
      cases r with
      | cal i => exact calValid_reset i
      | raw k => exact rawValid_reset k
      | res k => exact resValid_reset k
      | slp => rfl
      | sys q => exact absurd (hn ▸ le_of_sysRegOf (sysRegOf_number q)) hsys
    exact ⟨_, exec_rd_invalid hn hvalid, by rw [firstAnswer_rd, if_neg hsys, raise_resp]⟩

end Sys2Proof.Safety

namespace Sys2Proof.Proofs

open Sys2Proof.Machine Sys2Proof.Safety

/-- Settles O12. -/
theorem waitsWithoutCommand : Obligations.WaitsWithoutCommand := by
  intro s hcmds
  rw [step, takeCommand_nil hcmds]

/-- Settles O10: under the latch a word is one of the three that make no test, or is ignored. -/
theorem latchedCommandsNeverFault : Obligations.LatchedCommandsNeverFault := by
  intro s t w rest hfault hcmds hstep
  refine ⟨resp_ne_fault_of_fault hfault hcmds hstep, ?_⟩
  by_cases haccepts : latchAccepts w = true
  case neg =>
    cases hstep.symm.trans (step_latched hfault hcmds (by simpa using haccepts))
    exact .inl ⟨hfault, rfl, rfl⟩
  case pos =>
    obtain ⟨hreset, herrclr, hrd, -⟩ := latchAcceptsExactlyThree s w rest hfault hcmds
    rcases (latchAccepts_iff w).1 haccepts with hw | hw | ⟨n, hlo, hhi, hw⟩
    · cases hstep.symm.trans (hreset hw)
      exact .inr ⟨rfl, rfl, rfl, .inl hw⟩
    · cases hstep.symm.trans (herrclr hw)
      exact .inr ⟨rfl, rfl, rfl, .inr hw⟩
    · obtain ⟨r, hr⟩ := exists_sysRegOf hlo hhi
      cases hstep.symm.trans ((hrd n hlo hhi hw).trans (exec_rd_sys hr _))
      exact .inl ⟨hfault, rfl, rfl⟩

/-- Settles O14: the fault wrote only the latch, and ERRCLR puts the latch back to its values while FAULT = 0. -/
theorem errclrUndoesAFault : Obligations.ErrclrUndoesAFault := by
  intro i s t e hfault herr hecmd hexec hresp
  obtain ⟨-, rfl⟩ := faultEntryWritesOnlyTheLatch i s t e hexec hresp
  rw [exec_errclr, respond, clearFault, ← hfault, ← herr, ← hecmd]

/-- Settles O16, command by command: the first test of R203 that fires in the reset state, or the answer `ok`. -/
theorem firstCommandAfterReset : Obligations.FirstCommandAfterReset := by
  intro i hwf
  have faults {e : ErrCode} (hfirst : firstFault i State.reset = some e) :
      ∃ t, exec i State.reset = .next t ∧ t.resp = some (.fault e) := by
    obtain ⟨t, ht⟩ := exec_next i State.reset
    exact ⟨t, ht, (resp_of_firstFault hwf ht).1 e hfirst⟩
  cases i
  case reset | errclr | ldb => exact ⟨_, rfl, rfl⟩
  case calbegin fam =>
    obtain ⟨f, hf⟩ := exists_familyOf hwf
    exact ⟨_, exec_calbegin hf State.reset, rfl⟩
  case rd n => exact exec_rd_reset hwf
  case setslp imm =>
    rw [exec_setslp, firstAnswer_setslp]
    by_cases himm : imm = 0
    case pos => subst himm; exact ⟨_, rfl, rfl⟩
    case neg =>
      rw [require_pos himm, if_neg (by simpa [BitVec.toNat_eq] using himm)]
      exact ⟨_, rfl, rfl⟩
  case dec8 | dec16le | dec16be | dec12hl | dec12ms | dec20 | decbf =>
    rw [firstAnswer_of_decodeForm rfl]
    exact faults (firstFault_reset_of_decodeForm rfl)
  all_goals exact faults rfl

end Sys2Proof.Proofs
end


section
/-! PROOFS. What compensation commands write (R27, R40): one description of the results of all eight, and the properties
of the results (R18, R162, R183, R187, R188, R212). -/

namespace Sys2Proof.Machine

open Sys2Proof.Safety

/-! ### Writing several results -/

/-- `x[48 + k] <- f k` for every k of the list (R13). -/
def writeResults (f : Fin 11 → Word) (ks : List (Fin 11)) (s : State) : State :=
  ks.foldl (fun u k => writeRes k (f k) u) s

section WriteResults

variable {f : Fin 11 → Word} {ks : List (Fin 11)} {s : State}

/-- Writing results changes the result registers and their valid bits only. -/
theorem writeResults_frame (f : Fin 11 → Word) (ks : List (Fin 11)) (s : State) :
    writeResults f ks s = { s with res := (writeResults f ks s).res, resV := (writeResults f ks s).resV } := by
  induction ks generalizing s with
  | nil => rfl
  | cons j ks ih => exact ih (writeRes j (f j) s)

@[simp] theorem writeResults_cal : (writeResults f ks s).cal = s.cal := by rw [writeResults_frame]

@[simp] theorem writeResults_calV : (writeResults f ks s).calV = s.calV := by rw [writeResults_frame]

@[simp] theorem writeResults_raw : (writeResults f ks s).raw = s.raw := by rw [writeResults_frame]

@[simp] theorem writeResults_rawV : (writeResults f ks s).rawV = s.rawV := by rw [writeResults_frame]

@[simp] theorem writeResults_slp : (writeResults f ks s).slp = s.slp := by rw [writeResults_frame]

@[simp] theorem writeResults_slpV : (writeResults f ks s).slpV = s.slpV := by rw [writeResults_frame]

@[simp] theorem writeResults_istate : (writeResults f ks s).istate = s.istate := by rw [writeResults_frame]

@[simp] theorem writeResults_family : (writeResults f ks s).family = s.family := by rw [writeResults_frame]

theorem writeResults_res (k : Fin 11) : (writeResults f ks s).res[k] = if k ∈ ks then f k else s.res[k] := by
  induction ks generalizing s with
  | nil => simp [writeResults]
  | cons j ks ih =>
    refine (ih (s := writeRes j (f j) s)).trans ?_
    rw [writeRes_res, getElem_set_fin]
    by_cases hjk : j = k
    · subst hjk; simp
    · simp [hjk, Ne.symm hjk]

theorem resValid_writeResults (k : Fin 11) :
    resValid k (writeResults f ks s) = (resValid k s || decide (k ∈ ks)) := by
  induction ks generalizing s with
  | nil => simp [writeResults]
  | cons j ks ih =>
    refine (ih (s := writeRes j (f j) s)).trans ?_
    rw [resValid_writeRes, Bool.or_assoc]
    simp [eq_comm]

/-- Writing results that the registers hold changes nothing. -/
theorem writeResults_of_written (h : ∀ k ∈ ks, s.res[k] = f k ∧ resValid k s = true) : writeResults f ks s = s := by
  have hres : (writeResults f ks s).res = s.res := by
    refine Vector.ext fun n hn => (writeResults_res ⟨n, hn⟩).trans ?_
    split
    · next hk => exact (h _ hk).1.symm
    · rfl
  have hvalid : (writeResults f ks s).resV = s.resV := by
    refine BitVec.eq_of_getLsbD_eq fun n hn => (resValid_writeResults ⟨n, hn⟩).trans ?_
    by_cases hk : (⟨n, hn⟩ : Fin 11) ∈ ks
    · simpa [hk, resValid] using (h _ hk).2.symm
    · simp [hk, resValid]
  rw [writeResults_frame, hres, hvalid]

/-- Writing results makes no register invalid. -/
theorem validReg_writeResults {n : Nat} (h : validReg n s = true) : validReg n (writeResults f ks s) = true := by
  unfold validReg at h ⊢
  simp only [writeResults_calV, writeResults_rawV, writeResults_slpV]
  split_ifs at h ⊢ with hcal hraw hres hslp
  · exact h
  · exact h
  · exact (resValid_writeResults ⟨n - 48, by omega⟩).trans (by simp [resValid, h])
  · exact h
  · rfl

end WriteResults

/-! ### The results of a command -/

/-- What a compensation command writes to result register 48 + k, for k in `resOutputs` (R151 to R187). -/
def result (i : Instr) (s : State) (k : Fin 11) : Word :=
  match i with
  | .compt => if k = Res.TFINE then (temperature s).1 else (temperature s).2
  | .compp => pressure s
  | .comph => humidity s
  | .alt => altFn s.res[Res.P].toNat (altDen s.family) s.slp.toNat
  | .gasres => gasResistance s.raw[Raw.G] s.raw[Raw.GRANGE] s.cal[Cal.RSE]
  | .heatres imm => heaterByte (heatTarget imm) s.res[Res.T] s.cal[Cal.G1] s.cal[Cal.G2] s.cal[Cal.G3] s.cal[Cal.RHR]
      s.cal[Cal.RHV]
  | .heatdur imm => durationByte imm
  | .uvi d =>
      let a := uvChannelA s.raw[Raw.UVA] s.raw[Raw.UVC1] s.raw[Raw.UVC2] (darkValue d s)
      let b := uvChannelB s.raw[Raw.UVB] s.raw[Raw.UVC1] s.raw[Raw.UVC2] (darkValue d s)
      if k = Res.UVA then lo32 a else if k = Res.UVB then lo32 b else uvIndex a b
  | _ => 0

/-- A compensation command that completes writes its results and nothing else (R27, R40). -/
theorem Completes.results {i : Instr} {s t : State} (hcomp : isCompensation i = true) (h : Completes i s t) :
    t = respond 0 (writeResults (result i s) (resOutputs i) s) := by
  cases i <;> cases hcomp
  case compt => obtain ⟨-, -, -, rfl⟩ := h; rfl
  case compp => obtain ⟨-, -, -, -, rfl⟩ := h; rfl
  case comph => obtain ⟨-, -, -, -, rfl⟩ := h; rfl
  case alt => obtain ⟨-, -, -, -, -, rfl⟩ := h; rfl
  case gasres => obtain ⟨-, -, -, -, rfl⟩ := h; rfl
  case heatres => obtain ⟨-, -, -, rfl⟩ := h; rfl
  case heatdur => obtain ⟨-, -, rfl⟩ := h; rfl
  case uvi => obtain ⟨-, -, -, -, rfl⟩ := h; rfl

/-- Each result is written and valid. -/
theorem Completes.result_eq {i : Instr} {s t : State} (hcomp : isCompensation i = true) (h : Completes i s t)
    {k : Fin 11} (hk : k ∈ resOutputs i) : t.res[k] = result i s k ∧ resValid k t = true := by
  rw [h.results hcomp, respond_res, resValid_respond, writeResults_res, resValid_writeResults, if_pos hk]
  simp [hk]

/-- The results depend on the inputs of R40 only, where the family has the command (R18). -/
theorem result_congr {i : Instr} {s t u : State} (hcomp : isCompensation i = true) (hcompletes : Completes i s u)
    (h : sameInputs i s t) : result i s = result i t := by
  obtain ⟨hfamily, hslp, hcal, hraw, hres⟩ := h
  funext k
  cases i <;> cases hcomp
  case compt =>
    simp only [calInputs, rawInputs, List.forall_mem_cons] at hcal hraw
    simp only [result, temperature, hfamily, hcal, hraw]
  case compp | comph =>
    obtain ⟨-, hU, -⟩ := hcompletes
    cases hA : s.family
    case U => exact absurd hA hU
    all_goals
      simp only [hA, calInputs, rawInputs, resInputs, List.forall_mem_cons] at hcal hraw hres
      simp [result, pressure, humidity, ← hfamily, hA, hcal, hraw, hres]
  case alt =>
    simp only [resInputs, List.forall_mem_cons] at hres
    simp only [result, hfamily, hslp rfl, hres]
  case gasres =>
    simp only [calInputs, rawInputs, List.forall_mem_cons] at hcal hraw
    simp only [result, hcal, hraw]
  case heatres =>
    simp only [calInputs, resInputs, List.forall_mem_cons] at hcal hres
    simp only [result, hcal, hres]
  case heatdur => rfl
  case uvi d =>
    cases d
    all_goals
      simp only [rawInputs, List.forall_mem_cons, if_true, Bool.false_eq_true, if_false] at hraw
      simp [result, darkValue, hraw]

/-! ### When a command completes -/

/-- Point 6 of R203 lets a command through when every register it needs is valid. -/
theorem sourceFault_eq_none_iff {i : Instr} {s : State} :
    sourceFault i s = none ↔ ∀ n ∈ fineSources i ++ otherSources i, validReg n s = true := by
  simp [sourceFault_eq_or, or_imp, forall_and]

/-- A compensation command that completes in s completes in t, where t has the same ISTATE and family, no fewer valid
registers and the same domain test. -/
theorem firstFault_eq_none_of_valid {i : Instr} {s t : State} (hcomp : isCompensation i = true)
    (hstate : t.istate = s.istate) (hfamily : t.family = s.family)
    (hvalid : ∀ n, validReg n s = true → validReg n t = true) (hdomain : domainFault i t = domainFault i s)
    (h : firstFault i s = none) : firstFault i t = none := by
  have hrest : destinations i = [] ∧ sources i = [] ∧ completenessFault i t = none := by
    cases i <;> cases hcomp <;> exact ⟨rfl, rfl, rfl⟩
  obtain ⟨hdest, hsources, hcomplete⟩ := hrest
  simp only [firstFault_eq_or, Option.or_eq_none_iff] at h ⊢
  obtain ⟨hs, hf, -, -, hsrc, -, hd, -⟩ := h
  refine ⟨?state, ?family, ?range, ?buffer, ?source, ?once, hdomain.trans hd, hcomplete⟩
  case state => rw [← hs]; cases i <;> cases hcomp <;> simp only [stateFault, hstate]
  case family => rw [← hf]; cases i <;> cases hcomp <;> simp only [familyFault, hfamily]
  case range => simp [rangeFault, hsources]
  case buffer => simp [bufferFault, hsources]
  case source =>
    rw [sourceFault_eq_none_iff] at hsrc ⊢
    exact fun n hn => hvalid n (hsrc n hn)
  case once => simp [onceFault, hdest]

theorem wf_of_isCompensation {i : Instr} (hcomp : isCompensation i = true) : i.wf = true := by
  cases i <;> cases hcomp <;> rfl

/-- A legal command that answers `ok` has failed no test. -/
theorem firstFault_eq_none_of_answersOk {i : Instr} {s t : State} (hwf : i.wf = true) (hexec : exec i s = .next t)
    (hok : answersOk t) : firstFault i s = none := by
  obtain ⟨d, hd⟩ := hok
  by_contra hfires
  obtain ⟨e, he⟩ := Option.ne_none_iff_exists'.1 hfires
  cases hd.symm.trans ((resp_of_firstFault hwf hexec).1 e he)

/-- No compensation command writes a result register it reads (R40). -/
theorem notMem_resOutputs {i : Instr} {k : Fin 11} (hk : k ∈ resInputs i) : k ∉ resOutputs i := by
  cases i
  case compp | comph | alt | heatres =>
    obtain rfl := List.mem_singleton.1 hk
    exact List.mem_singleton.not.2 (by decide)
  all_goals cases hk

/-- A compensation command leaves its inputs as they were. -/
theorem Completes.sameInputs {i : Instr} {s t : State} (hcomp : isCompensation i = true) (h : Completes i s t) :
    sameInputs i s t := by
  rw [h.results hcomp]
  refine ⟨?family, fun _ => ?slp, fun k _ => ?cal, fun k _ => ?raw, fun k hk => ?res⟩
  case res => rw [respond_res, writeResults_res, if_neg (notMem_resOutputs hk)]
  all_goals simp

/-- A compensation command that has completed completes again. -/
theorem Completes.again {i : Instr} {s t : State} (hcomp : isCompensation i = true) (h : Completes i s t)
    (hfirst : firstFault i s = none) : firstFault i t = none := by
  obtain ⟨hfamily, -, -, -, hres⟩ := h.sameInputs hcomp
  have ht := h.results hcomp
  refine firstFault_eq_none_of_valid hcomp ?state hfamily.symm (fun n hn => ?valid) ?domain hfirst
  case state => rw [ht]; simp
  case valid => rw [ht]; exact validReg_writeResults hn
  case domain =>
    cases i <;> cases hcomp
    case alt =>
      have hp : t.res[Res.P] = s.res[Res.P] := (hres Res.P List.mem_cons_self).symm
      exact congrArg (fun p : Word => if p.toNat = 0 then some ErrCode.domain else none) hp
    all_goals rfl

/-! ### The values of the formulas -/

/-- Every target above 400 is 400 (R183). -/
theorem heatTarget_of_lt {imm : BitVec 20} (h : 400 < imm.toNat) : heatTarget imm = heatTarget 400 := by
  rw [heatTarget, if_pos h]
  rfl

/-- A zero divisor gives the pressure 0 (R155, R156, R212). -/
theorem pressure_eq_zero {s : State} (hU : s.family ≠ .U)
    (h : (if s.family = .A then Formulas.pressADen else Formulas.pressBDen) (Formulas.resS s Res.TFINE)
      (Formulas.calS s Cal.P1) (Formulas.calS s Cal.P2) (Formulas.calS s Cal.P3) = 0) : pressure s = 0 := by
  cases hfamily : s.family
  case A =>
    rw [if_pos hfamily] at h
    rw [← pressure_familyA hfamily, Formulas.pressA]
    simp [h, Formulas.u32]
  case B =>
    rw [if_neg (by simp [hfamily])] at h
    rw [← pressure_familyB hfamily, Formulas.pressB]
    simp [h, Formulas.u32]
  case U => exact absurd hfamily hU

/-- With P1 = 0 the divisor is zero in both families (R155, R156). -/
theorem pressADen_zero (tf p2 p3 : Int) : Formulas.pressADen tf 0 p2 p3 = 0 := by
  simp [Formulas.pressADen, Formulas.w64, Formulas.wrap, Formulas.sra]

theorem pressBDen_zero (tf p2 p3 : Int) : Formulas.pressBDen tf 0 p2 p3 = 0 := by
  simp [Formulas.pressBDen, Formulas.w32, Formulas.wrap, Formulas.sra]

/-- Each of the two divisors of HEATRES, when zero, gives the byte 0 (R183, R212). -/
theorem heatres_eq_zero (imm rt g1 g2 g3 : Int) {rr rv : Int}
    (h : Formulas.w32 (rr + 4) = 0 ∨ Formulas.w32 (Formulas.w32 (131 * rv) + 65536) = 0) :
    Formulas.heatres imm rt g1 g2 g3 rr rv = 0 := by
  by_cases hfirst : Formulas.w32 (rr + 4) = 0
  case pos => exact if_pos hfirst
  case neg => exact (if_neg hfirst).trans (if_pos (h.resolve_left hfirst))

/-- The last steps of `HumA`: two clamps and a shift (R158). -/
theorem clampA_bounds (v : Int) :
    let u := if v < 0 then 0 else v
    let c := if u > 419430400 then 419430400 else u
    0 ≤ Formulas.sra c 12 ∧ Formulas.sra c 12 ≤ 102400 := by
  simp only [Formulas.sra]
  split_ifs <;> omega

/-- The last step of `HumB`: two clamps (R159). -/
theorem clampB_bounds (h : Int) :
    let c := if h > 100000 then 100000 else if h < 0 then 0 else h
    0 ≤ c ∧ c ≤ 100000 := by
  dsimp only
  split_ifs <;> omega

/-- Humidity lies within its clamps for every register content (R158, R159). -/
theorem humidity_bounds (s : State) :
    0 ≤ (humidity s).toInt ∧ (humidity s).toInt ≤ if s.family = .A then 102400 else 100000 := by
  rw [humidity]
  by_cases hA : s.family = .A
  case pos =>
    rw [if_pos hA, if_pos hA, ← Laws.humA_toInt]
    exact clampA_bounds _
  case neg =>
    rw [if_neg hA, if_neg hA, ← Laws.humB_toInt]
    exact clampB_bounds _

/-- A word whose signed value lies between 0 and n is at most n. -/
theorem toNat_le_of_toInt {x : Word} {n : Nat} (h0 : 0 ≤ x.toInt) (hn : x.toInt ≤ n) : x.toNat ≤ n := by
  have hx := x.isLt
  rw [BitVec.toInt_eq_toNat_cond] at h0 hn
  split at hn <;> omega

/-- x is the signed value of a word (R13). -/
def FitsWord (x : Int) : Prop := -2147483648 ≤ x ∧ x < 2147483648

/-- `wrapN` leaves alone what fits (R9). -/
theorem w32_of_fits {x : Int} (h : FitsWord x) : Formulas.w32 x = x :=
  Int.bmod_eq_of_le h.1 (Int.lt_of_lt_of_le h.2 (by decide))

theorem w64_of_fits {x : Int} (hlo : -9223372036854775808 ≤ x) (hhi : x < 9223372036854775808) : Formulas.w64 x = x :=
  Int.bmod_eq_of_le (by omega) (by omega)

/-- What fits a word unsigned is stored as it is (R13). -/
theorem toNat_u32_of_fits {x : Int} (hlo : 0 ≤ x) (hhi : x < 4294967296) : ((Formulas.u32 x).toNat : Int) = x := by
  rw [Formulas.u32, BitVec.toNat_ofInt]
  omega

section UltravioletIsExact

/-- A raw register of at most 20 bits (R25). -/
def Is20Bit (x : Int) : Prop := 0 ≤ x ∧ x ≤ 2 ^ 20 - 1

variable {ua ub c1 c2 dk : Int}

/-- No node of the first channel wraps (R187, R188). -/
theorem uvA_exact (hua : Is20Bit ua) (h1 : Is20Bit c1) (h2 : Is20Bit c2) (hdk : Is20Bit dk) :
    Formulas.uvA ua c1 c2 dk = 100 * (ua - dk) - 222 * (c1 - dk) - 133 * (c2 - dk) := by
  unfold Is20Bit at *
  unfold Formulas.uvA
  simp (disch := omega) only [w64_of_fits]

/-- No node of the second channel wraps (R187, R188). -/
theorem uvB_exact (hub : Is20Bit ub) (h1 : Is20Bit c1) (h2 : Is20Bit c2) (hdk : Is20Bit dk) :
    Formulas.uvB ub c1 c2 dk = 100 * (ub - dk) - 295 * (c1 - dk) - 174 * (c2 - dk) := by
  unfold Is20Bit at *
  unfold Formulas.uvB
  simp (disch := omega) only [w64_of_fits]

end UltravioletIsExact

/-- The index of two channels whose weighted sum is below 2^32 (R187). -/
theorem uvI_exact {a b x : Int} (ha : FitsWord a) (hb : FitsWord b) (hx : x = 1461 * a + 2591 * b) :
    (x ≤ 0 → (Formulas.u32 (Formulas.uvI a b)).toNat = 0) ∧
    (0 < x → ((Formulas.u32 (Formulas.uvI a b)).toNat : Int) = x / 200000) := by
  subst hx
  unfold FitsWord at ha hb
  unfold Formulas.uvI
  simp (disch := omega) only [w64_of_fits]
  refine ⟨fun hzero => ?zero, fun hpos => ?quotient⟩
  case zero => rw [if_pos hzero]; rfl
  case quotient => rw [if_neg (by omega), toNat_u32_of_fits (by omega) (by omega)]

end Sys2Proof.Machine

namespace Sys2Proof.Proofs

open Sys2Proof.Machine Sys2Proof.Safety

/-- Settles O47: by `result_eq` the value written is the formula's, which takes its branch for a zero divisor. -/
theorem zeroDenominatorGivesZero : Obligations.ZeroDenominatorGivesZero := by
  intro s t hok
  refine ⟨fun hexec => ?compp, fun hexec hden => ?gasres, fun imm hexec hden => ?heatres⟩
  case compp =>
    have hc := exec_answersOk hexec hok
    obtain ⟨hres, hvalid⟩ := hc.result_eq rfl (k := Res.P) (by simp [resOutputs])
    obtain ⟨-, hU, -⟩ := hc
    have zero (hden : (if s.family = .A then Formulas.pressADen else Formulas.pressBDen)
        (Formulas.resS s Res.TFINE) (Formulas.calS s Cal.P1) (Formulas.calS s Cal.P2) (Formulas.calS s Cal.P3) = 0) :
        t.res[Res.P] = 0 ∧ resValid Res.P t = true :=
      ⟨hres.trans (pressure_eq_zero hU hden), hvalid⟩
    refine ⟨fun hA hden => zero ?familyA, fun hB hden => zero ?familyB, fun hP1 => zero ?noP1⟩
    case familyA => rwa [if_pos hA]
    case familyB => rwa [if_neg (by simp [hB])]
    case noP1 =>
      rw [hP1]
      split
      exacts [pressADen_zero .., pressBDen_zero ..]
  case gasres =>
    obtain ⟨hres, hvalid⟩ := (exec_answersOk hexec hok).result_eq rfl (k := Res.G) (by simp [resOutputs])
    refine ⟨?_, hvalid⟩
    rw [hres, result, ← Laws.gasResistance_u32, Formulas.gasres]
    exact congrArg Formulas.u32 (if_pos hden)
  case heatres =>
    obtain ⟨hres, hvalid⟩ := (exec_answersOk hexec hok).result_eq rfl (k := Res.HRES) (by simp [resOutputs])
    refine ⟨?_, hvalid⟩
    rw [hres, result, ← Laws.heaterByte_u32]
    exact congrArg Formulas.u32 (heatres_eq_zero _ _ _ _ _ hden)

/-- Settles O48, by `humidity_bounds`. -/
theorem humidityIsClamped : Obligations.HumidityIsClamped := by
  intro s t hexec hok
  obtain ⟨hres, -⟩ := (exec_answersOk hexec hok).result_eq rfl (k := Res.H) (by simp [resOutputs])
  obtain ⟨hlo, hhi⟩ := humidity_bounds s
  rw [hres]
  refine ⟨fun hA => toNat_le_of_toInt hlo ?_, fun hB => toNat_le_of_toInt hlo ?_⟩
  · rwa [if_pos hA] at hhi
  · rwa [if_neg (by simp [hB])] at hhi

/-- Settles O49: with 20-bit channels no node of `uvA`, `uvB` and `uvI` wraps. -/
theorem uvIndexIsExact : Obligations.UvIndexIsExact := by
  intro d s t dk a100 b100 x hraw hexec hok hdk ha hb hx
  have written := fun k => (exec_answersOk hexec hok).result_eq (i := .uvi d) rfl (k := k)
  obtain ⟨hA, -⟩ := written Res.UVA (by simp [resOutputs])
  obtain ⟨hB, -⟩ := written Res.UVB (by simp [resOutputs])
  obtain ⟨hI, -⟩ := written Res.UVI (by simp [resOutputs])
  have hdark : Is20Bit dk := by
    subst hdk
    split
    exacts [hraw Raw.UVD, by simp [Is20Bit]]
  have hchannelA : (uvChannelA s.raw[Raw.UVA] s.raw[Raw.UVC1] s.raw[Raw.UVC2] (darkValue d s)).toInt = a100 := by
    rw [Laws.uvChannelA_toInt, darkValue_toInt, ← hdk, ha]
    exact uvA_exact (hraw _) (hraw _) (hraw _) hdark
  have hchannelB : (uvChannelB s.raw[Raw.UVB] s.raw[Raw.UVC1] s.raw[Raw.UVC2] (darkValue d s)).toInt = b100 := by
    rw [Laws.uvChannelB_toInt, darkValue_toInt, ← hdk, hb]
    exact uvB_exact (hraw _) (hraw _) (hraw _) hdark
  have hfits : FitsWord a100 ∧ FitsWord b100 := by
    have hUVA := hraw Raw.UVA
    have hUVB := hraw Raw.UVB
    have hC1 := hraw Raw.UVC1
    have hC2 := hraw Raw.UVC2
    unfold Is20Bit at hdark
    unfold FitsWord
    omega
  obtain ⟨hfitsA, hfitsB⟩ := hfits
  refine ⟨?channelA, ?channelB, ?index⟩
  case channelA =>
    rw [Formulas.resS, hA, show result (.uvi d) s Res.UVA = lo32 _ from rfl, Laws.toInt_lo32, hchannelA,
      w32_of_fits hfitsA]
  case channelB =>
    rw [Formulas.resS, hB, show result (.uvi d) s Res.UVB = lo32 _ from rfl, Laws.toInt_lo32, hchannelB,
      w32_of_fits hfitsB]
  case index =>
    rw [hI, show result (.uvi d) s Res.UVI = uvIndex _ _ from rfl, ← Laws.uvIndex_u32, hchannelA, hchannelB]
    exact uvI_exact hfitsA hfitsB hx

/-- Settles O50: the operand enters no test, and enters the result only through the clamp. -/
theorem heaterTargetIsClamped : Obligations.HeaterTargetIsClamped := by
  intro imm s t u himm hexec hexec' hok
  have hok' : answersOk u :=
    (resp_of_firstFault rfl hexec').2 (firstFault_eq_none_of_answersOk (i := .heatres imm) rfl hexec hok)
  rw [(exec_answersOk hexec hok).results rfl, (exec_answersOk hexec' hok').results rfl]
  have hresult : result (.heatres imm) s = result (.heatres 400) s := by
    funext k
    simp only [result, heatTarget_of_lt himm]
  rw [hresult]
  rfl

/-- Settles O51: it completes again with the same inputs, so it writes the results that stand there. -/
theorem repeatedCompensationChangesNothing : Obligations.RepeatedCompensationChangesNothing := by
  intro i s t hcomp hexec hok
  have hwf := wf_of_isCompensation hcomp
  have hc := exec_answersOk hexec hok
  obtain ⟨u, hu⟩ := exec_next i t
  have hagain := exec_answersOk hu ((resp_of_firstFault hwf hu).2
    (hc.again hcomp (firstFault_eq_none_of_answersOk hwf hexec hok)))
  rw [hu, hagain.results hcomp, ← result_congr hcomp hc (hc.sameInputs hcomp),
    writeResults_of_written fun k hk => hc.result_eq hcomp hk, hc.results hcomp]
  rfl

/-- Settles O52: each result is `result`, which `result_congr` finds equal for equal inputs. -/
theorem resultsDependOnlyOnInputs : Obligations.ResultsDependOnlyOnInputs := by
  intro i s t s' t' hcomp hsame hexec hexec' hok hok' k hk
  have hc := exec_answersOk hexec hok
  obtain ⟨hres, hvalid⟩ := hc.result_eq hcomp hk
  obtain ⟨hres', hvalid'⟩ := (exec_answersOk hexec' hok').result_eq hcomp hk
  exact ⟨by rw [hres, hres', result_congr hcomp hc hsame], hvalid, hvalid'⟩

end Sys2Proof.Proofs
end


section
/-! PROOFS. The invariant (10_state.md): the reset state has it, each update keeps it, so each step does. -/

namespace Sys2Proof.Machine

open Sys2Proof.Safety

/-! ### What a step does with a word -/

/-- Everything a step can do with a word: ignore it, enter a fault, or complete the command it decodes to (R203). -/
theorem step_outcomes {s t : State} {w : Word} {rest : List Word} (hcmds : s.cmds = w :: rest)
    (hstep : step s = .next t) :
    t = ignore { s with cmds := rest } ∨
    (∃ e v, e ≠ .none ∧ t = raise e v { s with cmds := rest }) ∨
    ∃ i, decode w = .ok i ∧ Completes i { s with cmds := rest } t := by
  rcases step_cases hstep with ⟨hnil, -⟩ | ⟨w', rest', hcons, hout⟩
  · cases hcmds.symm.trans hnil
  obtain ⟨rfl, rfl⟩ := List.cons.inj (hcmds.symm.trans hcons)
  rcases hout with ⟨-, -, rfl⟩ | ⟨-, ⟨_, -, rfl⟩ | ⟨i, hi, hexec⟩⟩
  · exact .inl rfl
  · exact .inr (.inl ⟨.illegal, w, by decide, rfl⟩)
  · rcases exec_cases hexec with ⟨e, he, rfl⟩ | hcompletes
    · exact .inr (.inl ⟨e, _, he, rfl⟩)
    · exact .inr (.inr ⟨i, hi, hcompletes⟩)

/-! ### Values -/

/-- A field that a decode may write is within the range of every calibration register, and not negative when unsigned
(R133). -/
theorem within_bounds {sgn : Bool} {n : Nat} {x : Word} (hn : n ≤ 20) (hsgn : sgn = true → n ≤ 16)
    (h : Within (fieldRange sgn n) x) : -32768 ≤ x.toInt ∧ x.toInt ≤ 1048575 ∧ (sgn = false → 0 ≤ x.toInt) := by
  obtain ⟨hlo, hhi⟩ := h
  cases sgn
  case false =>
    have hp : (2 : Int) ^ n ≤ 2 ^ 20 := pow_le_pow_right₀ (by decide) hn
    simp only [fieldRange, Bool.false_eq_true, if_false] at hlo hhi
    exact ⟨by omega, by omega, fun _ => hlo⟩
  case true =>
    have hp : (2 : Int) ^ (n - 1) ≤ 2 ^ 15 := pow_le_pow_right₀ (by decide) (Nat.sub_le_of_le_add (hsgn rfl))
    simp only [fieldRange, if_true] at hlo hhi
    exact ⟨by omega, by omega, nofun⟩

/-- R_HRES is a byte (R183). -/
theorem heaterByte_le (t rt g1 g2 g3 rr rv : Word) : (heaterByte t rt g1 g2 g3 rr rv).toNat ≤ 255 := by
  unfold heaterByte
  dsimp only
  split_ifs
  · decide
  · decide
  · rw [BitVec.toNat_setWidth, BitVec.toNat_setWidth]
    omega

/-- R_HDUR is a byte (R185). -/
theorem durationByte_le (imm : BitVec 20) : (durationByte imm).toNat ≤ 255 := by
  have hbyte : Formulas.heatdur imm.toNat ≤ 255 := by
    unfold Formulas.heatdur
    split_ifs <;> omega
  rw [Laws.durationByte_eq, Formulas.u32, BitVec.ofInt_natCast, BitVec.toNat_ofNat]
  omega

/-- What the invariant asks of results that are written: the cycle has what they were computed from, and each lies in
its range (R27, R29, R151 to R185). -/
structure ResultsAllowed (f : Fin 11 → Word) (ks : List (Fin 11)) (s : State) : Prop where
  ready : s.istate = .ready
  family : ∀ k ∈ ks, 48 + k.val ∈ resset s.family
  fine : Res.TFINE ∈ ks ↔ Res.T ∈ ks
  order : (Res.P ∈ ks ∨ Res.H ∈ ks ∨ Res.G ∈ ks ∨ Res.HRES ∈ ks) → resValid Res.TFINE s = true
  alt : Res.ALT ∈ ks → resValid Res.P s = true ∧ s.slpV = true
  hum : Res.H ∈ ks → 0 ≤ (f Res.H).toInt ∧ (f Res.H).toInt ≤ if s.family = .A then 102400 else 100000
  hres : Res.HRES ∈ ks → (f Res.HRES).toNat ≤ 255
  hdur : Res.HDUR ∈ ks → (f Res.HDUR).toNat ≤ 255

end Sys2Proof.Machine

namespace Sys2Proof.Safety

open Sys2Proof.Machine

/-! ### Each update keeps the invariant -/

/-- The reset state: no register is valid (R39). -/
theorem inv_reset : Inv State.reset where
  mem := Memory.wf_nil
  noFault _ := ⟨rfl, rfl⟩
  aFault := nofun
  family _ := rfl
  calIn i hi := by simp [calValid_reset] at hi
  calAll := nofun
  rawIn k hk := by simp [rawValid_reset] at hk
  resIn k hk := by simp [resValid_reset] at hk
  slpPos := nofun
  calRange i hi := by simp [calValid_reset] at hi
  rawRange k hk := by simp [rawValid_reset] at hk
  fine := by simp [resValid_reset]
  order := by simp [resValid_reset]
  altAfter := by simp [resValid_reset]
  humRange := by simp [resValid_reset]
  heatBytes := by simp [resValid_reset]

variable {s : State}

/-- The command port and the response are not part of the invariant (R16, R28). -/
theorem Inv.withPort (h : Inv s) (cs : List Word) (r : Option Response) : Inv { s with cmds := cs, resp := r } :=
  { h with }

theorem Inv.raise (h : Inv s) {e : ErrCode} (he : e ≠ .none) (w : Word) : Inv (raise e w s) :=
  { h with noFault := nofun, aFault := fun _ => he }

theorem Inv.clearFault (h : Inv s) : Inv (clearFault s) :=
  { h with noFault := fun _ => ⟨rfl, rfl⟩, aFault := nofun }

/-- CALBEGIN (R101): before it no register is valid. -/
theorem Inv.begin (h : Inv s) (hstate : s.istate = .uninitialized) (f : Family) :
    Inv { s with family := f, istate := .fetching } := by
  have hcal : ∀ i, calValid i s = false := fun i => Bool.eq_false_iff.2 fun hi => (h.calIn i hi).2 hstate
  have hraw : ∀ k, rawValid k s = false := fun k => Bool.eq_false_iff.2 fun hk => by
    cases hstate.symm.trans (h.rawIn k hk).2
  have hres : ∀ k, resValid k s = false := fun k => Bool.eq_false_iff.2 fun hk => by
    cases hstate.symm.trans (h.resIn k hk).2
  exact { h with
    family := nofun
    calIn := fun i hi => by cases (hcal i).symm.trans hi
    calAll := nofun
    rawIn := fun k hk => by cases (hraw k).symm.trans hk
    resIn := fun k hk => by cases (hres k).symm.trans hk
    humRange := fun hk => by cases (hres _).symm.trans hk }

/-- CALCOMMIT (R102): the populated set is REQ[FAMILY]. -/
theorem Inv.commit (h : Inv s) (hset : s.calV = required s.family) :
    Inv { s with istate := .ready } :=
  { h with
    family := nofun
    calIn := fun i hi => ⟨(h.calIn i hi).1, nofun⟩
    calAll := fun _ i hi => ((calV_eq_required_iff s).1 hset i).2 hi
    rawIn := fun k hk => ⟨(h.rawIn k hk).1, rfl⟩
    resIn := fun k hk => ⟨(h.resIn k hk).1, rfl⟩ }

/-- CYCLE (R105): no raw register and no result is valid after it. -/
theorem Inv.newCycle (h : Inv s) : Inv (newCycle s) := by
  have hraw := rawValid_newCycle s
  have hres := resValid_newCycle s
  exact { h with
    mem := Memory.wf_nil
    rawIn := fun k hk => by cases (hraw k).symm.trans hk
    resIn := fun k hk => by cases (hres k).symm.trans hk
    rawRange := fun k hk => by cases (hraw k).symm.trans hk
    fine := by simp [hres]
    order := by simp [hres]
    altAfter := by simp [hres]
    humRange := by simp [hres]
    heatBytes := by simp [hres] }

/-- SETSLP (R107). -/
theorem Inv.setSlp (h : Inv s) {imm : BitVec 20} (himm : imm ≠ 0) : Inv { s with slp := imm, slpV := true } :=
  { h with slpPos := fun _ => himm, altAfter := fun hk => ⟨(h.altAfter hk).1, rfl⟩ }

/-- LDB (R120). -/
theorem Inv.store (h : Inv s) (off : BitVec 6) (b : Byte) : Inv { s with buf := Memory.write s.buf off.toNat b } :=
  { h with mem := Memory.wf_write h.mem off.isLt }

/-- A write to a calibration register of the family while fetching (R123, R133). -/
theorem Inv.writeCal (h : Inv s) {i : Fin 26} {v : Word} (hstate : s.istate = .fetching) (hreq : inRequired i s = true)
    (hlo : -32768 ≤ v.toInt) (hhi : v.toInt ≤ 1048575) : Inv (writeCal i v s) := by
  have valid {j : Fin 26} (hj : calValid j (Machine.writeCal i v s) = true) : i = j ∨ calValid j s = true := by
    simpa [calValid_writeCal, or_comm] using hj
  have value (j : Fin 26) :
      Formulas.calS (Machine.writeCal i v s) j = if i = j then v.toInt else Formulas.calS s j := by
    rw [Formulas.calS, writeCal_cal, getElem_set_fin, apply_ite BitVec.toInt]
    rfl
  refine { h with calIn := fun j hj => ?calIn, calAll := fun hready => ?calAll, calRange := fun j hj => ?calRange }
  case calIn =>
    rcases valid hj with rfl | hj
    · exact ⟨(inRequired_iff i s).1 hreq, by simp [hstate]⟩
    · exact h.calIn j hj
  case calAll => cases hstate.symm.trans hready
  case calRange =>
    rw [value]
    split
    · exact ⟨hlo, hhi⟩
    · next hne => exact h.calRange j ((valid hj).resolve_left hne)

/-- A write to a raw register of the family in Ready (R124, R133). -/
theorem Inv.writeRaw (h : Inv s) {k : Fin 10} {v : Word} (hstate : s.istate = .ready) (hset : inRawSet k s = true)
    (hlo : 0 ≤ v.toInt) (hhi : v.toInt ≤ 1048575) : Inv (writeRaw k v s) := by
  have valid {j : Fin 10} (hj : rawValid j (Machine.writeRaw k v s) = true) : k = j ∨ rawValid j s = true := by
    simpa [rawValid_writeRaw, or_comm] using hj
  have value (j : Fin 10) :
      Formulas.rawS (Machine.writeRaw k v s) j = if k = j then v.toInt else Formulas.rawS s j := by
    rw [Formulas.rawS, writeRaw_raw, getElem_set_fin, apply_ite BitVec.toInt]
    rfl
  refine { h with rawIn := fun j hj => ?rawIn, rawRange := fun j hj => ?rawRange }
  case rawIn =>
    rcases valid hj with rfl | hj
    · exact ⟨(inRawSet_iff k s).1 hset, hstate⟩
    · exact h.rawIn j hj
  case rawRange =>
    rw [value]
    split
    · exact ⟨hlo, hhi⟩
    · next hne => exact h.rawRange j ((valid hj).resolve_left hne)

/-- The writes of a compensation command (R27, R29, R150). -/
theorem Inv.writeResults (h : Inv s) {f : Fin 11 → Word} {ks : List (Fin 11)} (ha : ResultsAllowed f ks s) :
    Inv (writeResults f ks s) := by
  have valid (k : Fin 11) : resValid k (Machine.writeResults f ks s) = true ↔ resValid k s = true ∨ k ∈ ks := by
    simp [resValid_writeResults]
  have value (k : Fin 11) : (Machine.writeResults f ks s).res[k] = if k ∈ ks then f k else s.res[k] :=
    writeResults_res k
  have horder (hk : resValid Res.P (Machine.writeResults f ks s) = true ∨
      resValid Res.H (Machine.writeResults f ks s) = true ∨ resValid Res.G (Machine.writeResults f ks s) = true ∨
      resValid Res.HRES (Machine.writeResults f ks s) = true) :
      resValid Res.TFINE (Machine.writeResults f ks s) = true := by
    rw [valid]
    by_cases hnew : Res.P ∈ ks ∨ Res.H ∈ ks ∨ Res.G ∈ ks ∨ Res.HRES ∈ ks
    case pos => exact .inl (ha.order hnew)
    case neg => simp only [valid] at hk; exact .inl (h.order (by tauto))
  have haltAfter (hk : resValid Res.ALT (Machine.writeResults f ks s) = true) :
      resValid Res.P (Machine.writeResults f ks s) = true ∧ s.slpV = true := by
    obtain ⟨hp, hslp⟩ := ((valid _).1 hk).elim h.altAfter ha.alt
    exact ⟨(valid _).2 (.inl hp), hslp⟩
  have hhum (hk : resValid Res.H (Machine.writeResults f ks s) = true) :
      0 ≤ (Machine.writeResults f ks s).res[Res.H].toInt ∧
        (Machine.writeResults f ks s).res[Res.H].toInt ≤ if s.family = .A then 102400 else 100000 := by
    rw [value]
    split
    · next hnew => exact ha.hum hnew
    · next hold => exact h.humRange (((valid _).1 hk).resolve_right hold)
  have hbyte {k : Fin 11} (hk : resValid k (Machine.writeResults f ks s) = true)
      (hnew : k ∈ ks → (f k).toNat ≤ 255) (hold : resValid k s = true → s.res[k].toNat ≤ 255) :
      (Machine.writeResults f ks s).res[k].toNat ≤ 255 := by
    rw [value]
    split
    · next hmem => exact hnew hmem
    · next hmem => exact hold (((valid _).1 hk).resolve_right hmem)
  rw [writeResults_frame]
  exact { h with
    resIn := fun k hk => ((valid k).1 hk).elim (h.resIn k) fun hnew => ⟨ha.family k hnew, ha.ready⟩
    fine := Bool.eq_iff_iff.2 (by
      refine (valid _).trans (Iff.trans ?_ (valid _).symm)
      rw [h.fine, ha.fine])
    order := horder
    altAfter := haltAfter
    humRange := hhum
    heatBytes := ⟨fun hk => hbyte hk ha.hres h.heatBytes.1, fun hk => hbyte hk ha.hdur h.heatBytes.2⟩ }

end Sys2Proof.Safety

namespace Sys2Proof.Machine

open Sys2Proof.Safety

/-! ### Each command keeps the invariant -/

/-- What a compensation command writes meets the invariant, when it completes (R27, R29, R151 to R187). -/
theorem Completes.resultsAllowed {i : Instr} {s t : State} (hinv : Inv s) (hcomp : isCompensation i = true)
    (h : Completes i s t) : ResultsAllowed (result i s) (resOutputs i) s where
  ready := by cases i <;> cases hcomp <;> exact h.1
  family := by
    cases i <;> cases hcomp
    case compt | compp | comph | alt =>
      obtain ⟨-, hU, -⟩ := h
      cases hfamily : s.family
      case U => exact absurd hfamily hU
      all_goals simp only [resOutputs]; decide
    case gasres | heatres | heatdur | uvi =>
      obtain ⟨-, hfamily, -⟩ := h
      rw [hfamily]
      simp only [resOutputs]
      decide
  fine := by cases i <;> cases hcomp <;> simp only [resOutputs] <;> decide
  order hk := by
    cases i <;> cases hcomp
    case compp | comph => obtain ⟨-, -, hfine, -⟩ := h; exact hfine
    case gasres | heatres => obtain ⟨-, -, htemp, -⟩ := h; exact hinv.fine.trans htemp
    all_goals exact absurd hk (by simp only [resOutputs]; decide)
  alt hk := by
    cases i <;> cases hcomp
    case alt => obtain ⟨-, -, hp, hslp, -⟩ := h; exact ⟨hp, hslp⟩
    all_goals exact absurd hk (by simp only [resOutputs]; decide)
  hum hk := by
    cases i <;> cases hcomp
    case comph => exact humidity_bounds s
    all_goals exact absurd hk (by simp only [resOutputs]; decide)
  hres hk := by
    cases i <;> cases hcomp
    case heatres => exact heaterByte_le ..
    all_goals exact absurd hk (by simp only [resOutputs]; decide)
  hdur hk := by
    cases i <;> cases hcomp
    case heatdur imm => exact durationByte_le imm
    all_goals exact absurd hk (by simp only [resOutputs]; decide)

/-- A decode command keeps the invariant: its field is in the range of its destination (R133). -/
theorem Completes.inv_of_decodeForm {i : Instr} {dst : BitVec 6} {offs : List Nat} {s t : State}
    (hform : decodeForm i = some (dst, offs)) (hinv : Inv s) (h : Completes i s t) : Inv t := by
  obtain ⟨sgn, n, x, hn, hsgn, -, hwrites⟩ := h.decode hform
  obtain ⟨hlo, hhi, hnonneg⟩ := within_bounds hn hsgn (within_widen sgn x (by omega))
  rcases hwrites with ⟨i, -, hstate, hreq, -, rfl⟩ | ⟨k, hunsigned, -, hstate, hset, -, rfl⟩
  · exact (hinv.writeCal hstate hreq hlo hhi).withPort _ _
  · exact (hinv.writeRaw hstate hset (hnonneg hunsigned) hhi).withPort _ _

/-- Every command that completes keeps the invariant. -/
theorem Completes.inv {i : Instr} {s t : State} (hinv : Inv s) (h : Completes i s t) : Inv t := by
  cases i
  case reset => cases h; exact inv_reset.withPort _ _
  case calbegin => obtain ⟨f, -, hstate, rfl⟩ := h; exact (hinv.begin hstate f).withPort _ _
  case calcommit => obtain ⟨-, hset, rfl⟩ := h; exact (hinv.commit hset).withPort _ _
  case errclr => cases h; exact hinv.clearFault.withPort _ _
  case cycle => obtain ⟨-, rfl⟩ := h; exact hinv.newCycle.withPort _ _
  case rd => obtain ⟨d, rfl⟩ := h; exact hinv.withPort _ _
  case setslp => obtain ⟨himm, rfl⟩ := h; exact (hinv.setSlp himm).withPort _ _
  case ldb off b => cases h; exact (hinv.store off b).withPort _ _
  case dec8 | dec16le | dec16be | dec12hl | dec12ms | dec20 | decbf => exact Completes.inv_of_decodeForm rfl hinv h
  case decgas a =>
    obtain ⟨hstate, ⟨hcount, hrange⟩, rfl, -⟩ := h
    obtain ⟨-, hle, hnonneg⟩ := within_bounds (sgn := false) (by decide) nofun (within_widen false
      (gasCount (Memory.cell s.buf a.toNat) (Memory.cell s.buf (a.toNat + 1))) (by decide))
    obtain ⟨-, hle', hnonneg'⟩ := within_bounds (sgn := false) (by decide) nofun (within_widen false
      (gasRange (Memory.cell s.buf (a.toNat + 1))) (by decide))
    have hwritten := hinv.writeRaw hstate hcount (hnonneg rfl) hle
    exact (hwritten.writeRaw hstate hrange (hnonneg' rfl) hle').withPort _ _
  case compt | compp | comph | alt | gasres | heatres | heatdur | uvi =>
    rw [h.results rfl]
    exact (hinv.writeResults (h.resultsAllowed hinv rfl)).withPort _ _

end Sys2Proof.Machine

namespace Sys2Proof.Proofs

open Sys2Proof.Machine Sys2Proof.Safety

/-- Settles O53, by `inv_reset`. -/
theorem resetHasInvariant : Obligations.ResetHasInvariant := inv_reset

/-- Settles O54: waiting, ignoring and a fault write only the port and the latch; for the rest, `Completes.inv`. -/
theorem stepKeepsInvariant : Obligations.StepKeepsInvariant := by
  intro s t hinv hstep
  cases hcmds : s.cmds with
  | nil =>
    cases hstep.symm.trans (waitsWithoutCommand s hcmds)
    exact hinv
  | cons w rest =>
    have htaken : Inv { s with cmds := rest } := hinv.withPort rest s.resp
    rcases step_outcomes hcmds hstep with rfl | ⟨e, v, he, rfl⟩ | ⟨i, -, hcompletes⟩
    · exact htaken.withPort _ _
    · exact htaken.raise he v
    · exact hcompletes.inv htaken

end Sys2Proof.Proofs
end


section
/-! PROOFS. Whole-machine rules: what no command can observe (R24, R39, R230), and what a command cannot change (R23,
R26, R30). -/

namespace Sys2Proof.Safety

open Sys2Proof.Machine

/-! ### Each update keeps two states indistinguishable -/

variable {s t : State}

theorem SameVisible.calValid_eq (h : SameVisible s t) (i : Fin 26) : calValid i s = calValid i t := by
  rw [calValid, calValid, h.calV]

theorem SameVisible.resValid_eq (h : SameVisible s t) (k : Fin 11) : resValid k s = resValid k t := by
  rw [resValid, resValid, h.resV]

theorem SameVisible.withResp (h : SameVisible s t) (r : Option Response) :
    SameVisible { s with resp := r } { t with resp := r } :=
  { h with resp := rfl }

theorem SameVisible.raise (h : SameVisible s t) (e : ErrCode) (w : Word) : SameVisible (raise e w s) (raise e w t) :=
  { h with fault := rfl, err := rfl, ecmd := rfl, resp := rfl }

theorem SameVisible.resetState (h : SameVisible s t) : SameVisible (resetState s) (resetState t) :=
  { SameVisible.refl State.reset with cmds := h.cmds, resp := h.resp }

theorem SameVisible.clearFault (h : SameVisible s t) : SameVisible (clearFault s) (clearFault t) :=
  { h with fault := rfl, err := rfl, ecmd := rfl }

theorem SameVisible.withState (h : SameVisible s t) (f : Family) (m : IState) :
    SameVisible { s with family := f, istate := m } { t with family := f, istate := m } :=
  { h with family := rfl, istate := rfl }

theorem SameVisible.newCycle (h : SameVisible s t) : SameVisible (newCycle s) (newCycle t) :=
  { h with
    buf := rfl, rawV := rfl, resV := rfl
    raw := fun k hk => by cases (rawValid_newCycle s k).symm.trans hk
    res := fun k hk => by cases (resValid_newCycle s k).symm.trans hk }

theorem SameVisible.setSlp (h : SameVisible s t) (imm : BitVec 20) :
    SameVisible { s with slp := imm, slpV := true } { t with slp := imm, slpV := true } :=
  { h with slp := fun _ => rfl, slpV := rfl }

theorem SameVisible.store (h : SameVisible s t) (a : Nat) (b : Byte) :
    SameVisible { s with buf := Memory.write s.buf a b } { t with buf := Memory.write t.buf a b } :=
  { h with buf := by rw [h.buf] }

theorem SameVisible.sysValue_eq (h : SameVisible s t) (q : SysReg) : sysValue q s = sysValue q t := by
  cases q
  case status => simp only [sysValue, statusWord, h.resValid_eq, h.slpV, h.fault, h.family, h.istate]
  case err => simp only [sysValue, h.err]
  case ecmd => exact h.ecmd
  case calpop => simp only [sysValue, h.calV]
  case rawv => simp only [sysValue, h.rawV]
  case resv => simp only [sysValue, h.resV]
  case bufvLo | bufvHi => simp only [sysValue, h.buf]

theorem SameVisible.writeCal (h : SameVisible s t) (i : Fin 26) (v : Word) :
    SameVisible (writeCal i v s) (writeCal i v t) :=
  { h with
    calV := by simp only [writeCal_calV, h.calV]
    cal := fun j hj => by
      rw [writeCal_cal, writeCal_cal, getElem_set_fin, getElem_set_fin]
      split
      · rfl
      · next hne => exact h.cal j (by simpa [calValid_writeCal, hne] using hj) }

theorem SameVisible.writeRaw (h : SameVisible s t) (k : Fin 10) (v : Word) :
    SameVisible (writeRaw k v s) (writeRaw k v t) :=
  { h with
    rawV := by simp only [writeRaw_rawV, h.rawV]
    raw := fun j hj => by
      rw [writeRaw_raw, writeRaw_raw, getElem_set_fin, getElem_set_fin]
      split
      · rfl
      · next hne => exact h.raw j (by simpa [rawValid_writeRaw, hne] using hj) }

theorem SameVisible.writeRes (h : SameVisible s t) (k : Fin 11) (v : Word) :
    SameVisible (writeRes k v s) (writeRes k v t) :=
  { h with
    resV := by simp only [writeRes_resV, h.resV]
    res := fun j hj => by
      rw [writeRes_res, writeRes_res, getElem_set_fin, getElem_set_fin]
      split
      · rfl
      · next hne => exact h.res j (by simpa [resValid_writeRes, hne] using hj) }

theorem SameVisible.writeResults (h : SameVisible s t) (f : Fin 11 → Word) (ks : List (Fin 11)) :
    SameVisible (writeResults f ks s) (writeResults f ks t) := by
  induction ks generalizing s t with
  | nil => exact h
  | cons k ks ih => exact ih (h.writeRes k (f k))

/-! ### Tests see only what is visible -/

theorem SameVisible.validReg_eq (h : SameVisible s t) (n : Nat) : validReg n s = validReg n t := by
  rw [validReg, validReg, h.calV, h.rawV, h.resV, h.slpV]

/-- The domain test of ALT reads R_P, which its earlier test has found valid (R160). -/
theorem SameVisible.domainFault_eq (h : SameVisible s t) {i : Instr} (hsource : sourceFault i s = none) :
    domainFault i s = domainFault i t := by
  cases i
  case alt =>
    have hp : resValid Res.P s = true := sourceFault_eq_none_iff.1 hsource 50 List.mem_cons_self
    exact congrArg (fun p : Word => if p.toNat = 0 then some ErrCode.domain else none) (h.res Res.P hp)
  all_goals rfl

theorem SameVisible.firstFault_eq (h : SameVisible s t) (i : Instr) : firstFault i s = firstFault i t := by
  have hstate : stateFault i s = stateFault i t := by unfold stateFault; rw [h.istate]
  have hfamily : familyFault i s = familyFault i t := by unfold familyFault; rw [h.family]
  have hbuffer : bufferFault i s = bufferFault i t := by rw [bufferFault, bufferFault, h.buf]
  have hsource : sourceFault i s = sourceFault i t := by simp only [sourceFault, h.validReg_eq]
  have honce : onceFault i s = onceFault i t := by simp only [onceFault, h.validReg_eq]
  have hcomplete : completenessFault i s = completenessFault i t := by
    unfold completenessFault
    simp only [h.calValid_eq, h.family]
  rw [firstFault_eq_or, firstFault_eq_or, hstate, hfamily, hbuffer, honce, hcomplete]
  cases hnone : sourceFault i s with
  | none => rw [← hsource, hnone, h.domainFault_eq hnone]
  | some e => rw [← hsource, hnone, Option.some_or, Option.some_or]

end Sys2Proof.Safety

namespace Sys2Proof.Machine

open Sys2Proof.Safety

/-! ### Commands see only what is visible -/

/-- The calibration registers a compensation command reads belong to its family (R22, R40). -/
theorem Completes.calInputs_required {i : Instr} {s s' : State} (hcomp : isCompensation i = true)
    (h : Completes i s s') : ∀ k ∈ calInputs i s.family, k.val ∈ Formulas.req s.family := by
  cases i <;> cases hcomp
  case compt | compp | comph =>
    obtain ⟨-, hU, -⟩ := h
    cases hfamily : s.family
    case U => exact absurd hfamily hU
    all_goals simp only [calInputs]; decide
  case gasres | heatres =>
    obtain ⟨-, hfamily, -⟩ := h
    rw [hfamily]
    simp only [calInputs]
    decide
  all_goals exact nofun

/-- A compensation command that completes has found the raw and result registers it reads valid (R40, R150). -/
theorem Completes.inputs_valid {i : Instr} {s s' : State} (hcomp : isCompensation i = true) (h : Completes i s s') :
    s.istate = .ready ∧ (∀ k ∈ rawInputs i, rawValid k s = true) ∧ (∀ k ∈ resInputs i, resValid k s = true) ∧
      (i = .alt → s.slpV = true) := by
  cases i <;> cases hcomp
  case compt => obtain ⟨hready, -, hraw, -⟩ := h; exact ⟨hready, by simp [rawInputs, hraw], nofun, nofun⟩
  case compp | comph =>
    obtain ⟨hready, -, hfine, hraw, -⟩ := h
    exact ⟨hready, by simp [rawInputs, hraw], by simp [resInputs, hfine], nofun⟩
  case alt =>
    obtain ⟨hready, -, hp, hslp, -⟩ := h
    exact ⟨hready, nofun, by simp [resInputs, hp], fun _ => hslp⟩
  case gasres =>
    obtain ⟨hready, -, -, ⟨hgas, hrange⟩, -⟩ := h
    exact ⟨hready, by simp [rawInputs, hgas, hrange], nofun, nofun⟩
  case heatres => obtain ⟨hready, -, htemp, -⟩ := h; exact ⟨hready, nofun, by simp [resInputs, htemp], nofun⟩
  case heatdur => obtain ⟨hready, -⟩ := h; exact ⟨hready, nofun, nofun, nofun⟩
  case uvi d =>
    obtain ⟨hready, -, ⟨hA, hB, hC1, hC2⟩, hD, -⟩ := h
    refine ⟨hready, ?_, nofun, nofun⟩
    cases d
    · simp [rawInputs, hA, hB, hC1, hC2]
    · simp [rawInputs, hA, hB, hC1, hC2, hD rfl]

/-- States that cannot be told apart hold the same inputs of a command that completes (R40). -/
theorem Completes.sameInputs_of_sameVisible {i : Instr} {s t s' : State} (hcal : CalComplete s)
    (hsame : SameVisible s t) (hcomp : isCompensation i = true) (h : Completes i s s') : Safety.sameInputs i s t := by
  obtain ⟨hready, hraw, hres, hslp⟩ := h.inputs_valid hcomp
  exact ⟨hsame.family, fun hi => hsame.slp (hslp hi),
    fun k hk => hsame.cal k (hcal hready k (h.calInputs_required hcomp k hk)),
    fun k hk => hsame.raw k (hraw k hk), fun k hk => hsame.res k (hres k hk)⟩

/-- The same decode of states that cannot be told apart. -/
theorem DecodeWrites.sameVisible {dst : BitVec 6} {sgn : Bool} {v : Word} {s t s' t' : State} (hsame : SameVisible s t)
    (hs : DecodeWrites dst sgn v s s') (ht : DecodeWrites dst sgn v t t') : SameVisible s' t' := by
  rcases hs with ⟨i, hi, -, -, -, rfl⟩ | ⟨k, -, hk, -, -, -, rfl⟩ <;>
    rcases ht with ⟨j, hj, -, -, -, rfl⟩ | ⟨m, -, hm, -, -, -, rfl⟩
  · obtain rfl : i = j := Fin.ext (hi.symm.trans hj)
    exact (hsame.writeCal i v).withResp _
  · omega
  · omega
  · obtain rfl : k = m := Fin.ext (by omega)
    exact (hsame.writeRaw k v).withResp _

/-- A command that answers `ok` in states that cannot be told apart gives the same answer and leaves such states. -/
theorem Completes.sameVisible {i : Instr} {s t s' t' : State} (hcal : CalComplete s) (hsame : SameVisible s t)
    (hrd : ∀ n, i ≠ .rd n) (hs : Completes i s s') (ht : Completes i t t') : SameVisible s' t' := by
  cases i
  case reset => cases hs; cases ht; exact hsame.resetState.withResp _
  case calbegin =>
    obtain ⟨f, hf, -, rfl⟩ := hs
    obtain ⟨g, hg, -, rfl⟩ := ht
    obtain rfl : f = g := Option.some.inj (hf.symm.trans hg)
    exact (hsame.withState f .fetching).withResp _
  case calcommit =>
    obtain ⟨-, -, rfl⟩ := hs
    obtain ⟨-, -, rfl⟩ := ht
    exact { hsame with istate := rfl, resp := rfl }
  case errclr => cases hs; cases ht; exact hsame.clearFault.withResp _
  case cycle =>
    obtain ⟨-, rfl⟩ := hs
    obtain ⟨-, rfl⟩ := ht
    exact hsame.newCycle.withResp _
  case rd n => exact absurd rfl (hrd n)
  case setslp imm =>
    obtain ⟨-, rfl⟩ := hs
    obtain ⟨-, rfl⟩ := ht
    exact (hsame.setSlp imm).withResp _
  case ldb off b => cases hs; cases ht; exact (hsame.store off.toNat b).withResp _
  case dec8 | dec16le | dec16be | dec12hl | dec12ms | dec20 =>
    rw [Completes, ← hsame.buf] at ht
    exact DecodeWrites.sameVisible hsame hs ht
  case decbf =>
    rw [Completes, ← hsame.buf] at ht
    exact hs.2.sameVisible hsame ht.2
  case decgas a =>
    obtain ⟨-, -, rfl, -⟩ := hs
    obtain ⟨-, -, rfl, -⟩ := ht
    rw [← hsame.buf]
    exact ((hsame.writeRaw _ _).writeRaw _ _).withResp _
  case compt | compp | comph | alt | gasres | heatres | heatdur | uvi =>
    rw [hs.results rfl, ht.results rfl, ← result_congr rfl hs (hs.sameInputs_of_sameVisible hcal hsame rfl)]
    exact (hsame.writeResults _ _).withResp _

/-- RD tests a valid bit, and answers contents only where it is set (R106). -/
theorem exec_rd_sameVisible {n : BitVec 7} {s t : State} (hsame : SameVisible s t) (hwf : (Instr.rd n).wf = true) :
    ∃ s' t', exec (.rd n) s = .next s' ∧ exec (.rd n) t = .next t' ∧ SameVisible s' t' := by
  obtain ⟨r, hn⟩ := exists_number_of_rselReadable hwf
  have hvalid : r.valid s = r.valid t := by
    rw [← validReg_number, ← validReg_number, hsame.validReg_eq]
  cases hv : r.valid s
  case false =>
    exact ⟨_, _, exec_rd_invalid hn hv, exec_rd_invalid hn (hvalid ▸ hv), hsame.raise _ _⟩
  case true =>
    have hvalue : r.value s = r.value t := by
      cases r with
      | cal i => exact hsame.cal i hv
      | raw k => exact hsame.raw k hv
      | res k => exact hsame.res k hv
      | slp => exact congrArg (BitVec.setWidth 32) (hsame.slp hv)
      | sys q => exact hsame.sysValue_eq q
    refine ⟨_, _, exec_rd_valid hn hv, exec_rd_valid hn (hvalid ▸ hv), ?_⟩
    rw [← hvalue]
    exact hsame.withResp _

/-- A word that does not decode and is not held back by the latch raises E_ILLEGAL (R82). -/
theorem step_illegal {s : State} {w : Word} {rest : List Word} {r : Illegal} (hcmds : s.cmds = w :: rest)
    (hlatch : s.fault = false ∨ latchAccepts w = true) (hr : decode w = .error r) :
    step s = .next (raise .illegal w { s with cmds := rest }) := by
  rcases hlatch with hfault | haccepts
  · rw [step_unlatched hfault hcmds, hr]
  · obtain ⟨i, hi, -⟩ := exists_answersOk_of_latchAccepts haccepts
    cases hr.symm.trans hi

/-- Every legal command answers the same in states that cannot be told apart, and leaves such states (R24). -/
theorem exec_sameVisible {i : Instr} {s t : State} (hwf : i.wf = true) (hcal : CalComplete s)
    (hsame : SameVisible s t) :
    ∃ s' t', exec i s = .next s' ∧ exec i t = .next t' ∧ SameVisible s' t' := by
  by_cases hrd : ∃ n, i = .rd n
  case pos => obtain ⟨n, rfl⟩ := hrd; exact exec_rd_sameVisible hsame hwf
  case neg =>
    obtain ⟨s', hs⟩ := exec_next i s
    obtain ⟨t', ht⟩ := exec_next i t
    obtain ⟨hfaults, hok⟩ := resp_of_firstFault hwf hs
    obtain ⟨hfaults', hok'⟩ := resp_of_firstFault hwf ht
    rw [← hsame.firstFault_eq i] at hfaults' hok'
    refine ⟨s', t', hs, ht, ?_⟩
    cases hfirst : firstFault i s with
    | some e =>
      obtain ⟨-, rfl⟩ := Proofs.faultEntryWritesOnlyTheLatch i s s' e hs (hfaults e hfirst)
      obtain ⟨-, rfl⟩ := Proofs.faultEntryWritesOnlyTheLatch i t t' e ht (hfaults' e hfirst)
      exact hsame.raise e (encode i)
    | none =>
      exact (exec_answersOk hs (hok hfirst)).sameVisible hcal hsame (fun n hn => hrd ⟨n, hn⟩)
        (exec_answersOk ht (hok' hfirst))

/-! ### What a command keeps -/

/-- What every command keeps but RESET, CALBEGIN, CALCOMMIT and CYCLE: ISTATE, the family, in Ready the calibration set,
and every valid raw sample (R23, R26, R30). -/
structure KeepsCycle (s t : State) : Prop where
  istate : t.istate = s.istate
  family : t.family = s.family
  cal : s.istate = .ready → t.cal = s.cal ∧ t.calV = s.calV
  raw : ∀ k : Fin 10, rawValid k s = true → rawValid k t = true ∧ t.raw[k] = s.raw[k]

/-- An update of other fields. -/
theorem KeepsCycle.of_eq {s t : State} (hstate : t.istate = s.istate) (hfamily : t.family = s.family)
    (hcal : t.cal = s.cal) (hcalV : t.calV = s.calV) (hraw : t.raw = s.raw) (hrawV : t.rawV = s.rawV) :
    KeepsCycle s t where
  istate := hstate
  family := hfamily
  cal _ := ⟨hcal, hcalV⟩
  raw k hk := ⟨by rw [rawValid, hrawV]; exact hk, by rw [hraw]⟩

theorem keepsCycle_respond (d : Word) (s : State) : KeepsCycle s (respond d s) := .of_eq rfl rfl rfl rfl rfl rfl

theorem KeepsCycle.trans {s t u : State} (h : KeepsCycle s t) (h' : KeepsCycle t u) : KeepsCycle s u where
  istate := h'.istate.trans h.istate
  family := h'.family.trans h.family
  cal hready := by
    obtain ⟨hcal, hcalV⟩ := h.cal hready
    obtain ⟨hcal', hcalV'⟩ := h'.cal (h.istate.trans hready)
    exact ⟨hcal'.trans hcal, hcalV'.trans hcalV⟩
  raw k hk := by
    obtain ⟨hvalid, hvalue⟩ := h.raw k hk
    obtain ⟨hvalid', hvalue'⟩ := h'.raw k hvalid
    exact ⟨hvalid', hvalue'.trans hvalue⟩

/-- A calibration register is written while fetching only (R123). -/
theorem keepsCycle_writeCal {s : State} (hstate : s.istate = .fetching) (i : Fin 26) (v : Word) :
    KeepsCycle s (writeCal i v s) where
  istate := rfl
  family := rfl
  cal hready := by cases hstate.symm.trans hready
  raw k hk := ⟨hk, rfl⟩

/-- A raw register is written once in a cycle (R124). -/
theorem keepsCycle_writeRaw {s : State} {k : Fin 10} (hfree : rawValid k s = false) (v : Word) :
    KeepsCycle s (writeRaw k v s) where
  istate := rfl
  family := rfl
  cal _ := ⟨rfl, rfl⟩
  raw j hj := by
    have hne : k ≠ j := by rintro rfl; cases hfree.symm.trans hj
    rw [rawValid_writeRaw, writeRaw_raw, getElem_set_fin, if_neg hne, hj]
    exact ⟨rfl, rfl⟩

theorem keepsCycle_writeResults (f : Fin 11 → Word) (ks : List (Fin 11)) (s : State) :
    KeepsCycle s (writeResults f ks s) :=
  .of_eq writeResults_istate writeResults_family writeResults_cal writeResults_calV writeResults_raw writeResults_rawV

theorem DecodeWrites.keepsCycle {dst : BitVec 6} {sgn : Bool} {v : Word} {s t : State}
    (h : DecodeWrites dst sgn v s t) : KeepsCycle s t := by
  rcases h with ⟨i, -, hstate, -, -, rfl⟩ | ⟨k, -, -, -, -, hfree, rfl⟩
  · exact (keepsCycle_writeCal hstate i v).trans (keepsCycle_respond 0 _)
  · exact (keepsCycle_writeRaw hfree v).trans (keepsCycle_respond 0 _)

/-- All but RESET, CALBEGIN, CALCOMMIT and CYCLE keep the cycle. -/
theorem Completes.keepsCycle {i : Instr} {s t : State} (h : Completes i s t) (hreset : i ≠ .reset)
    (hbegin : ∀ fam, i ≠ .calbegin fam) (hcommit : i ≠ .calcommit) (hcycle : i ≠ .cycle) : KeepsCycle s t := by
  cases i
  case reset => exact absurd rfl hreset
  case calbegin fam => exact absurd rfl (hbegin fam)
  case calcommit => exact absurd rfl hcommit
  case cycle => exact absurd rfl hcycle
  case errclr | ldb => cases h; exact .of_eq rfl rfl rfl rfl rfl rfl
  case rd | setslp => obtain ⟨_, rfl⟩ := h; exact .of_eq rfl rfl rfl rfl rfl rfl
  case dec8 | dec16le | dec16be | dec12hl | dec12ms | dec20 | decbf =>
    obtain ⟨_, _, _, -, -, -, hwrites⟩ := h.decode rfl
    exact hwrites.keepsCycle
  case decgas a =>
    obtain ⟨-, -, rfl, hcount, hrange⟩ := h
    refine (keepsCycle_writeRaw hcount _).trans ((keepsCycle_writeRaw ?_ _).trans (keepsCycle_respond 0 _))
    rw [rawValid_writeRaw, hrange]
    decide
  case compt | compp | comph | alt | gasres | heatres | heatdur | uvi =>
    rw [h.results rfl]
    exact (keepsCycle_writeResults _ _ s).trans (keepsCycle_respond 0 _)

/-- A step with a word keeps the cycle, or completes one of the four commands that need not. -/
theorem step_keepsCycle {s t : State} {w : Word} {rest : List Word} (hcmds : s.cmds = w :: rest)
    (hstep : step s = .next t) :
    KeepsCycle s t ∨ ∃ i, decode w = .ok i ∧ Completes i { s with cmds := rest } t ∧
      (i = .reset ∨ (∃ fam, i = .calbegin fam) ∨ i = .calcommit ∨ i = .cycle) := by
  have htaken : KeepsCycle s { s with cmds := rest } := .of_eq rfl rfl rfl rfl rfl rfl
  rcases step_outcomes hcmds hstep with rfl | ⟨e, v, -, rfl⟩ | ⟨i, hi, hcompletes⟩
  · exact .inl (.of_eq rfl rfl rfl rfl rfl rfl)
  · exact .inl (.of_eq rfl rfl rfl rfl rfl rfl)
  · by_cases hfour : i = .reset ∨ (∃ fam, i = .calbegin fam) ∨ i = .calcommit ∨ i = .cycle
    case pos => exact .inr ⟨i, hi, hcompletes, hfour⟩
    case neg =>
      simp only [not_or, not_exists] at hfour
      obtain ⟨hreset, hbegin, hcommit, hcycle⟩ := hfour
      exact .inl (htaken.trans (hcompletes.keepsCycle hreset hbegin hcommit hcycle))

end Sys2Proof.Machine

namespace Sys2Proof.Proofs

open Sys2Proof.Machine Sys2Proof.Safety

/-- Settles O55: the front end sees only what is visible, and so does every command, by `exec_sameVisible`. -/
theorem invalidContentsAreUnobservable : Obligations.InvalidContentsAreUnobservable := by
  intro s t hcal hsame
  cases hcmds : s.cmds with
  | nil => exact ⟨s, t, waitsWithoutCommand s hcmds, waitsWithoutCommand t (hsame.cmds.symm.trans hcmds), hsame⟩
  | cons w rest =>
    have hcmds' : t.cmds = w :: rest := hsame.cmds.symm.trans hcmds
    have htaken : SameVisible { s with cmds := rest } { t with cmds := rest } := { hsame with cmds := rfl }
    by_cases hignored : s.fault = true ∧ latchAccepts w = false
    case pos =>
      obtain ⟨hfault, hlatch⟩ := hignored
      exact ⟨_, _, step_latched hfault hcmds hlatch, step_latched (hsame.fault.symm.trans hfault) hcmds' hlatch,
        htaken.withResp _⟩
    case neg =>
      have hruns : s.fault = false ∨ latchAccepts w = true := by simpa [or_iff_not_imp_left] using hignored
      have hruns' : t.fault = false ∨ latchAccepts w = true := hsame.fault ▸ hruns
      cases hdecode : decode w with
      | ok i =>
        rw [step_runs hcmds hruns hdecode, step_runs hcmds' hruns' hdecode]
        exact exec_sameVisible (wf_of_decode hdecode) hcal htaken
      | error e =>
        exact ⟨_, _, step_illegal hcmds hruns hdecode, step_illegal hcmds' hruns' hdecode, htaken.raise _ _⟩

/-- Settles O56: of the four commands that need not keep the cycle, only RESET and CYCLE complete in Ready, and CYCLE
leaves the calibration set alone. -/
theorem calibrationIsImmutableInReady : Obligations.CalibrationIsImmutableInReady := by
  intro s t hready hstep hnotReset
  cases hcmds : s.cmds with
  | nil =>
    cases hstep.symm.trans (waitsWithoutCommand s hcmds)
    exact ⟨rfl, rfl, rfl, hready⟩
  | cons w rest =>
    rcases step_keepsCycle hcmds hstep with hkeeps | ⟨i, hi, hcompletes, hfour⟩
    · obtain ⟨hcal, hcalV⟩ := hkeeps.cal hready
      exact ⟨hcal, hcalV, hkeeps.family, hkeeps.istate.trans hready⟩
    rcases hfour with rfl | ⟨fam, rfl⟩ | rfl | rfl
    · exact absurd (by rw [hcmds, ← encode_of_decode hi]; rfl) hnotReset
    · obtain ⟨_, -, hstate, -⟩ := hcompletes
      cases hready.symm.trans hstate
    · obtain ⟨hstate, -⟩ := hcompletes
      cases hready.symm.trans hstate
    · obtain ⟨-, rfl⟩ := hcompletes
      exact ⟨rfl, rfl, rfl, hready⟩

/-- Settles O57: a step that does not keep ISTATE completes RESET, CALBEGIN or CALCOMMIT. -/
theorem istateMoves : Obligations.IstateMoves := by
  intro s t w rest hcmds hstep hmoves
  rcases step_keepsCycle hcmds hstep with hkeeps | ⟨i, hi, hcompletes, hfour⟩
  · exact absurd hkeeps.istate hmoves
  rcases hfour with rfl | ⟨fam, rfl⟩ | rfl | rfl
  · cases hcompletes
    exact .inl ⟨(encode_of_decode hi).symm, rfl⟩
  · obtain ⟨f, -, hstate, rfl⟩ := hcompletes
    exact .inr (.inl ⟨hstate, rfl, fam, hi⟩)
  · obtain ⟨hstate, -, rfl⟩ := hcompletes
    exact .inr (.inr ⟨hstate, rfl, (encode_of_decode hi).symm⟩)
  · obtain ⟨-, rfl⟩ := hcompletes
    exact absurd rfl hmoves

/-- Settles O58: CALBEGIN and CALCOMMIT leave the raw samples alone, and RESET and CYCLE are excluded. -/
theorem rawSampleIsStableInACycle : Obligations.RawSampleIsStableInACycle := by
  intro s t k hvalid hstep hnotCycle hnotReset
  cases hcmds : s.cmds with
  | nil =>
    cases hstep.symm.trans (waitsWithoutCommand s hcmds)
    exact ⟨hvalid, rfl⟩
  | cons w rest =>
    rcases step_keepsCycle hcmds hstep with hkeeps | ⟨i, hi, hcompletes, hfour⟩
    · exact hkeeps.raw k hvalid
    rcases hfour with rfl | ⟨fam, rfl⟩ | rfl | rfl
    · exact absurd (by rw [hcmds, ← encode_of_decode hi]; rfl) hnotReset
    · obtain ⟨_, -, -, rfl⟩ := hcompletes
      exact ⟨hvalid, rfl⟩
    · obtain ⟨-, -, rfl⟩ := hcompletes
      exact ⟨hvalid, rfl⟩
    · exact absurd (by rw [hcmds, ← encode_of_decode hi]; rfl) hnotCycle

end Sys2Proof.Proofs
end
